-- ==== Sys2Proof/Word.lean ====
section
/-!
DEFINITION. The widths of the CHIP-8 core (00_scope.md rules R7, R12): bytes, 16-bit words, the
4-, 8- and 12-bit instruction fields, and register numbers.
-/

namespace Sys2Proof

/-- An 8-bit value: a memory cell, a general register, a timer, the immediate `nn` (R7, R21). -/
abbrev Byte := BitVec 8

/-- A 16-bit value: an instruction word, `pc`, `I`, a stack entry (R7, R25, R27, R28). -/
abbrev Word := BitVec 16

/-- The 4-bit immediate `n` (R60). -/
abbrev Nibble := BitVec 4

/-- The 12-bit address field `nnn` (R60). -/
abbrev Addr := BitVec 12

/-- A register number: V0..VF are `0..15` (R21). It indexes the register file, so it is a number
below 16, not a bit pattern. -/
abbrev Reg := Fin 16

/-- The number of a key, 0..15 (R32). -/
abbrev Key := Fin 16

/-- `VF` is `V[15]` (R13, R22). -/
abbrev VF : Reg := 15

/-- `zext_16(v)` of an 8-bit value (R12). -/
abbrev zext16 (b : Byte) : Word := b.setWidth 16

/-- `zext_16(nnn)` of a 12-bit address field (R12, R62). -/
abbrev zextAddr (a : Addr) : Word := a.setWidth 16

end Sys2Proof
end

