-- ==== Sys2Proof/Syntax.lean ====
section
/-!
DEFINITION. The 34 instructions of spec/opcode_table.json, one constructor a row, in the table's order
(30_encoding.md rule R63).
-/

namespace Sys2Proof

/-- The instruction set (R3, R63). Each constructor carries the fields its row of the opcode table
names. -/
inductive Instr
  /-- 00E0 `CLS` (R104). -/
  | cls
  /-- 00EE `RET` (R81). -/
  | ret
  /-- 1NNN `JP addr` (R82). -/
  | jp (nnn : Addr)
  /-- 2NNN `CALL addr` (R83). -/
  | call (nnn : Addr)
  /-- 3XNN `SE Vx, byte` (R84). -/
  | seByte (x : Reg) (nn : Byte)
  /-- 4XNN `SNE Vx, byte` (R85). -/
  | sneByte (x : Reg) (nn : Byte)
  /-- 5XY0 `SE Vx, Vy` (R86). -/
  | seReg (x y : Reg)
  /-- 6XNN `LD Vx, byte` (R89). -/
  | ldByte (x : Reg) (nn : Byte)
  /-- 7XNN `ADD Vx, byte` (R90). -/
  | addByte (x : Reg) (nn : Byte)
  /-- 8XY0 `LD Vx, Vy` (R94). -/
  | ldReg (x y : Reg)
  /-- 8XY1 `OR Vx, Vy` (R95). -/
  | orReg (x y : Reg)
  /-- 8XY2 `AND Vx, Vy` (R96). -/
  | andReg (x y : Reg)
  /-- 8XY3 `XOR Vx, Vy` (R97). -/
  | xorReg (x y : Reg)
  /-- 8XY4 `ADD Vx, Vy` (R98). -/
  | addReg (x y : Reg)
  /-- 8XY5 `SUB Vx, Vy` (R99). -/
  | subReg (x y : Reg)
  /-- 8XY6 `SHR Vx, Vy` (R101). -/
  | shr (x y : Reg)
  /-- 8XY7 `SUBN Vx, Vy` (R100). -/
  | subnReg (x y : Reg)
  /-- 8XYE `SHL Vx, Vy` (R102). -/
  | shl (x y : Reg)
  /-- 9XY0 `SNE Vx, Vy` (R87). -/
  | sneReg (x y : Reg)
  /-- ANNN `LD I, addr` (R91). -/
  | ldI (nnn : Addr)
  /-- BNNN `JP V0, addr` (R88). Its row names both `nnn` and the field `x` inside it; WellFormed
  asks that `x` is `nnn[11:8]`. -/
  | jpV0 (x : Reg) (nnn : Addr)
  /-- CXNN `RND Vx, byte` (R92). -/
  | rnd (x : Reg) (nn : Byte)
  /-- DXYN `DRW Vx, Vy, nibble` (R105). -/
  | drw (x y : Reg) (n : Nibble)
  /-- EX9E `SKP Vx` (R111). -/
  | skp (x : Reg)
  /-- EXA1 `SKNP Vx` (R112). -/
  | sknp (x : Reg)
  /-- FX07 `LD Vx, DT` (R114). -/
  | ldVxDT (x : Reg)
  /-- FX0A `LD Vx, K` (R113). -/
  | ldVxK (x : Reg)
  /-- FX15 `LD DT, Vx` (R115). -/
  | ldDTVx (x : Reg)
  /-- FX18 `LD ST, Vx` (R116). -/
  | ldSTVx (x : Reg)
  /-- FX1E `ADD I, Vx` (R117). -/
  | addI (x : Reg)
  /-- FX29 `LD F, Vx` (R118). -/
  | ldF (x : Reg)
  /-- FX33 `LD B, Vx` (R119). -/
  | ldB (x : Reg)
  /-- FX55 `LD [I], Vx` (R120). -/
  | storeRegs (x : Reg)
  /-- FX65 `LD Vx, [I]` (R121). -/
  | loadRegs (x : Reg)
  deriving DecidableEq, Repr

/-- The opcode family of an instruction: bits 15:12 of its word (R17, R63). -/
def Instr.family : Instr → BitVec 4
  | .cls | .ret => 0x0
  | .jp _ => 0x1
  | .call _ => 0x2
  | .seByte _ _ => 0x3
  | .sneByte _ _ => 0x4
  | .seReg _ _ => 0x5
  | .ldByte _ _ => 0x6
  | .addByte _ _ => 0x7
  | .ldReg _ _ | .orReg _ _ | .andReg _ _ | .xorReg _ _ | .addReg _ _ | .subReg _ _ | .shr _ _
  | .subnReg _ _ | .shl _ _ => 0x8
  | .sneReg _ _ => 0x9
  | .ldI _ => 0xA
  | .jpV0 _ _ => 0xB
  | .rnd _ _ => 0xC
  | .drw _ _ _ => 0xD
  | .skp _ | .sknp _ => 0xE
  | .ldVxDT _ | .ldVxK _ | .ldDTVx _ | .ldSTVx _ | .addI _ | .ldF _ | .ldB _ | .storeRegs _
  | .loadRegs _ => 0xF

end Sys2Proof
end

