-- ==== Sys2Proof/WellFormed.lean ====
section
/-!
DEFINITION. The instructions that have an encoding. Every operand's range is carried by its type
(register numbers below 16, 4-, 8- and 12-bit fields), so one check is left: `JP V0, addr` names one
field twice.
-/

namespace Sys2Proof

/-- `nnn[11:8]` as a register number (R60, R88). -/
def addrReg (nnn : Addr) : Reg := (nnn.extractLsb' 8 4).toFin

/-- An instruction is well formed when it has an encoding: the register of `JP V0, addr` is the high
nibble of its address ("x = nnn[11:8]", R88). -/
def Instr.wellFormed : Instr → Bool
  | .jpV0 x nnn => x = addrReg nnn
  | .cls | .ret | .jp _ | .call _ | .seByte _ _ | .sneByte _ _ | .seReg _ _ | .ldByte _ _
  | .addByte _ _ | .ldReg _ _ | .orReg _ _ | .andReg _ _ | .xorReg _ _ | .addReg _ _ | .subReg _ _
  | .shr _ _ | .subnReg _ _ | .shl _ _ | .sneReg _ _ | .ldI _ | .rnd _ _ | .drw _ _ _ | .skp _
  | .sknp _ | .ldVxDT _ | .ldVxK _ | .ldDTVx _ | .ldSTVx _ | .addI _ | .ldF _ | .ldB _
  | .storeRegs _ | .loadRegs _ => true

end Sys2Proof
end

