-- ==== Sys2Proof/Decode.lean ====
section
/-!
DEFINITION. The decoder (30_encoding.md rules R59 to R69, 40_cycle.md rule R74) and, after it, the
encoder, written from the opcode map of R63. The decoder is total: every word either names an
instruction or is rejected by name.
-/

namespace Sys2Proof

/-- The field tuple of a word (R60): every field is extracted from every word (R61). -/
structure Fields where
  op : BitVec 4
  x : Reg
  y : Reg
  n : Nibble
  nn : Byte
  nnn : Addr
  deriving DecidableEq, Repr

/-- Why a word (or a list of bytes) names no instruction. Each of the last five is an
InvalidInstruction of R69, named after the rule that rejects it. -/
inductive DecodeError
  /-- Fewer than two bytes: there is no whole word (R59). -/
  | truncated
  /-- Family 0x0, and neither 00E0 nor 00EE (R64). -/
  | family0 (w : Word)
  /-- Family 0x5 or 0x9 with a low nibble that is not zero (R65). -/
  | lowNibbleNotZero (w : Word)
  /-- Family 0x8 with a low nibble outside 0..7 and 0xE (R66). -/
  | aluNibble (w : Word)
  /-- Family 0xE with a low byte other than 0x9E and 0xA1 (R67). -/
  | keyByte (w : Word)
  /-- Family 0xF with a low byte outside the nine of R67. -/
  | transferByte (w : Word)
  deriving DecidableEq, Repr

/-- `Decode(w)` of R61: fixed bit-slicing, with the positions of R60. -/
def fieldsOf (w : Word) : Fields where
  op := w.extractLsb' 12 4
  x := (w.extractLsb' 8 4).toFin
  y := (w.extractLsb' 4 4).toFin
  n := w.extractLsb' 0 4
  nn := w.extractLsb' 0 8
  nnn := w.extractLsb' 0 12

/-- Family 0x0 selects on the whole word (R64). -/
def selectFamily0 (w : Word) : Except DecodeError Instr :=
  if w = 0x00E0 then .ok .cls
  else if w = 0x00EE then .ok .ret
  else .error (.family0 w)

/-- Family 0x8 selects on `n` (R66). -/
def selectAlu (w : Word) (f : Fields) : Except DecodeError Instr :=
  if f.n = 0x0 then .ok (.ldReg f.x f.y)
  else if f.n = 0x1 then .ok (.orReg f.x f.y)
  else if f.n = 0x2 then .ok (.andReg f.x f.y)
  else if f.n = 0x3 then .ok (.xorReg f.x f.y)
  else if f.n = 0x4 then .ok (.addReg f.x f.y)
  else if f.n = 0x5 then .ok (.subReg f.x f.y)
  else if f.n = 0x6 then .ok (.shr f.x f.y)
  else if f.n = 0x7 then .ok (.subnReg f.x f.y)
  else if f.n = 0xE then .ok (.shl f.x f.y)
  else .error (.aluNibble w)

/-- Family 0xE selects on `nn` (R67). The values 0x9E and 0xA1 are the spec's own choice (D6). -/
def selectKey (w : Word) (f : Fields) : Except DecodeError Instr :=
  if f.nn = 0x9E then .ok (.skp f.x)
  else if f.nn = 0xA1 then .ok (.sknp f.x)
  else .error (.keyByte w)

/-- Family 0xF selects on `nn` (R67). -/
def selectTransfer (w : Word) (f : Fields) : Except DecodeError Instr :=
  if f.nn = 0x07 then .ok (.ldVxDT f.x)
  else if f.nn = 0x0A then .ok (.ldVxK f.x)
  else if f.nn = 0x15 then .ok (.ldDTVx f.x)
  else if f.nn = 0x18 then .ok (.ldSTVx f.x)
  else if f.nn = 0x1E then .ok (.addI f.x)
  else if f.nn = 0x29 then .ok (.ldF f.x)
  else if f.nn = 0x33 then .ok (.ldB f.x)
  else if f.nn = 0x55 then .ok (.storeRegs f.x)
  else if f.nn = 0x65 then .ok (.loadRegs f.x)
  else .error (.transferByte w)

/-- The dispatch of R74 on the decoded fields: first on `op`, then as each family asks. -/
def select (w : Word) (f : Fields) : Except DecodeError Instr :=
  if f.op = 0x0 then selectFamily0 w
  else if f.op = 0x1 then .ok (.jp f.nnn)
  else if f.op = 0x2 then .ok (.call f.nnn)
  else if f.op = 0x3 then .ok (.seByte f.x f.nn)
  else if f.op = 0x4 then .ok (.sneByte f.x f.nn)
  else if f.op = 0x5 then
    if f.n = 0 then .ok (.seReg f.x f.y) else .error (.lowNibbleNotZero w)
  else if f.op = 0x6 then .ok (.ldByte f.x f.nn)
  else if f.op = 0x7 then .ok (.addByte f.x f.nn)
  else if f.op = 0x8 then selectAlu w f
  else if f.op = 0x9 then
    if f.n = 0 then .ok (.sneReg f.x f.y) else .error (.lowNibbleNotZero w)
  else if f.op = 0xA then .ok (.ldI f.nnn)
  else if f.op = 0xB then .ok (.jpV0 f.x f.nnn)
  else if f.op = 0xC then .ok (.rnd f.x f.nn)
  else if f.op = 0xD then .ok (.drw f.x f.y f.n)
  else if f.op = 0xE then selectKey w f
  else selectTransfer w f

/-- The instruction a 16-bit word names, or why it names none (R61, R69, R74). -/
def decodeWord (w : Word) : Except DecodeError Instr := select w (fieldsOf w)

/-- The word of two consecutive bytes: the first is bits 15:8 (R45, D1: big-endian). -/
def wordOfBytes (hi lo : Byte) : Word := hi ++ lo

/-- The decoder on bytes: it always takes two (R59) and gives back the rest. -/
def decode : List Byte → Except DecodeError (Instr × List Byte)
  | hi :: lo :: rest => (decodeWord (wordOfBytes hi lo)).map fun i => (i, rest)
  | _ => .error .truncated

/-- A word of the form `op x y n` (R60). -/
def wordXYN (op : BitVec 4) (x y : Reg) (n : Nibble) : Word :=
  op ++ (BitVec.ofFin x : BitVec 4) ++ (BitVec.ofFin y : BitVec 4) ++ n

/-- A word of the form `op x nn` (R60). -/
def wordXNN (op : BitVec 4) (x : Reg) (nn : Byte) : Word :=
  op ++ (BitVec.ofFin x : BitVec 4) ++ nn

/-- A word of the form `op nnn` (R60). -/
def wordNNN (op : BitVec 4) (nnn : Addr) : Word := op ++ nnn

/-- The word of an instruction, from the patterns of R63. For `JP V0, addr` the register is part of
`nnn` (R88), so only `nnn` is written. -/
def encode : Instr → Word
  | .cls => 0x00E0
  | .ret => 0x00EE
  | .jp nnn => wordNNN 0x1 nnn
  | .call nnn => wordNNN 0x2 nnn
  | .seByte x nn => wordXNN 0x3 x nn
  | .sneByte x nn => wordXNN 0x4 x nn
  | .seReg x y => wordXYN 0x5 x y 0x0
  | .ldByte x nn => wordXNN 0x6 x nn
  | .addByte x nn => wordXNN 0x7 x nn
  | .ldReg x y => wordXYN 0x8 x y 0x0
  | .orReg x y => wordXYN 0x8 x y 0x1
  | .andReg x y => wordXYN 0x8 x y 0x2
  | .xorReg x y => wordXYN 0x8 x y 0x3
  | .addReg x y => wordXYN 0x8 x y 0x4
  | .subReg x y => wordXYN 0x8 x y 0x5
  | .shr x y => wordXYN 0x8 x y 0x6
  | .subnReg x y => wordXYN 0x8 x y 0x7
  | .shl x y => wordXYN 0x8 x y 0xE
  | .sneReg x y => wordXYN 0x9 x y 0x0
  | .ldI nnn => wordNNN 0xA nnn
  | .jpV0 _ nnn => wordNNN 0xB nnn
  | .rnd x nn => wordXNN 0xC x nn
  | .drw x y n => wordXYN 0xD x y n
  | .skp x => wordXNN 0xE x 0x9E
  | .sknp x => wordXNN 0xE x 0xA1
  | .ldVxDT x => wordXNN 0xF x 0x07
  | .ldVxK x => wordXNN 0xF x 0x0A
  | .ldDTVx x => wordXNN 0xF x 0x15
  | .ldSTVx x => wordXNN 0xF x 0x18
  | .addI x => wordXNN 0xF x 0x1E
  | .ldF x => wordXNN 0xF x 0x29
  | .ldB x => wordXNN 0xF x 0x33
  | .storeRegs x => wordXNN 0xF x 0x55
  | .loadRegs x => wordXNN 0xF x 0x65

/-- The byte at the fetch address (bits 15:8, R45). -/
def highByte (w : Word) : Byte := w.extractLsb' 8 8

/-- The byte at the fetch address + 1 (bits 7:0, R45). -/
def lowByte (w : Word) : Byte := w.extractLsb' 0 8

/-- The two bytes of an instruction, in the order they stand in memory (R45, R59). -/
def encodeBytes (i : Instr) : List Byte := [highByte (encode i), lowByte (encode i)]

/-- The 16-bit word of the opcode table's numbering: bits above `nbits` are zero. Every row of the
table is 16 bits, one word, so bit 0 of the table is bit 0 of the word (R59). -/
def tableWord (nbits w : Nat) : Word := BitVec.ofNat 16 (w % 2 ^ nbits)

/-- What the decoder reads from the bytes of a row of the opcode table, laid out as the hardware
stores them. -/
def decodeTableWord (nbits w : Nat) : Option Instr :=
  match decode [highByte (tableWord nbits w), lowByte (tableWord nbits w)] with
  | .ok (i, _) => some i
  | .error _ => none

end Sys2Proof
end

