-- ==== Sys2Proof/Config.lean ====
section
/-!
DEFINITION. What is fixed when the block is constructed (00_scope.md rules R7 to R11): the sizes the
hardware fixes, the four parameters it leaves to the model (QCFG, FONT_DATA, CYCLES_PER_FRAME,
ON_ERROR), and the two oracles (RAND, KEYS) as uninterpreted constants.

The parameters travel in the state as one component that no step changes (State.cfg), so that every
statement over all states is a statement over all values of the parameters; `defaults` is only what
State.reset holds. DESIGN CHOICE, notes/assumptions/1.md.
-/

namespace Sys2Proof

/-- MEM_SIZE, in bytes (R7). -/
abbrev memSize : Nat := 4096

/-- FONT_BASE (R8): where the 16 glyphs stand. -/
abbrev fontBase : Nat := 0x050

/-- GLYPH_H (R8): bytes in one glyph. -/
abbrev glyphHeight : Nat := 5

/-- PROG_BASE (R7): where `load` puts a program and where `pc` starts. -/
abbrev progBase : Nat := 0x200

/-- PROG_MAX (R7): the longest program image, in bytes. -/
abbrev progMax : Nat := 3584

/-- STACK_CAP (R9): the number of stack entries. -/
abbrev stackCap : Nat := 16

/-- DISPLAY_W (R7). -/
abbrev displayWidth : Nat := 64

/-- DISPLAY_H (R7). -/
abbrev displayHeight : Nat := 32

/-- One font glyph: 5 bytes (R8). -/
abbrev Glyph := Vector Byte 5

/-- FONT_DATA: 16 glyphs (R8, R10). -/
abbrev FontData := Vector Glyph 16

/-- The host's snapshot of the 16 keys; `true` is held (R32, R134). -/
abbrev KeySnapshot := Vector Bool 16

/-- ON_ERROR: what the host does after InvalidInstruction, StackOverflow or StackUnderflow (R128). -/
inductive ErrorPolicy
  | halt
  | goOn
  deriving DecidableEq, Repr

/-- The parameters of the block (R10), fixed at construction. -/
structure Params where
  /-- QCFG, the quirk register of R35, one bit per toggle of R11; the bits are read by the
  accessors of Machine/Ops.lean. -/
  qcfg : BitVec 7
  /-- FONT_DATA (R8). -/
  font : FontData
  /-- CYCLES_PER_FRAME (R139); R10 asks for at least 1, which `Params.legal` says. -/
  cyclesPerFrame : Nat
  /-- ON_ERROR (R128). -/
  onError : ErrorPolicy
  deriving DecidableEq, Repr

/-- CYCLES_PER_FRAME is "an integer at least 1" (R10); every other parameter value is legal (R11). -/
abbrev Params.legal (p : Params) : Prop := 1 ≤ p.cyclesPerFrame

/-- RAND: the free bytes that `RND` draws, one for each number of draws made so far (R137: any value,
no relation between draws). A free value: nothing says what it is (notes/assumptions/3.md). -/
opaque Config.freeRand : Nat → Byte

/-- KEYS: the free snapshots the host supplies, one for each number of frames started so far (R134).
A free value: nothing says what it is (notes/assumptions/4.md). -/
opaque Config.freeKeys : Nat → KeySnapshot

/-- PRESUMED (92_eei_decisions.md D5, from general knowledge; notes/assumptions/2.md): the
conventional CHIP-8 font, which the spec offers as the default for FONT_DATA. Unsafe for a claim
about glyph pixels that rests on it. -/
def Config.conventionalFont : FontData :=
  #v[#v[0xF0, 0x90, 0x90, 0x90, 0xF0],
     #v[0x20, 0x60, 0x20, 0x20, 0x70],
     #v[0xF0, 0x10, 0xF0, 0x80, 0xF0],
     #v[0xF0, 0x10, 0xF0, 0x10, 0xF0],
     #v[0x90, 0x90, 0xF0, 0x10, 0x10],
     #v[0xF0, 0x80, 0xF0, 0x10, 0xF0],
     #v[0xF0, 0x80, 0xF0, 0x90, 0xF0],
     #v[0xF0, 0x10, 0x20, 0x40, 0x40],
     #v[0xF0, 0x90, 0xF0, 0x90, 0xF0],
     #v[0xF0, 0x90, 0xF0, 0x10, 0xF0],
     #v[0xF0, 0x90, 0xF0, 0x90, 0x90],
     #v[0xE0, 0x90, 0xE0, 0x90, 0xE0],
     #v[0xF0, 0x80, 0x80, 0x80, 0xF0],
     #v[0xE0, 0x90, 0x90, 0x90, 0xE0],
     #v[0xF0, 0x80, 0xF0, 0x80, 0xF0],
     #v[0xF0, 0x80, 0xF0, 0x80, 0x80]]

/-- DESIGN CHOICE (notes/assumptions/1.md and 2.md): the parameter values State.reset holds. QCFG is
the CHIP8 example profile of 92_eei_decisions.md D21 (bits 2 to 6 set), ON_ERROR the `halt` of the
baseline of 95_test_vectors.md, CYCLES_PER_FRAME the 10 its frame vectors use. -/
def Config.defaults : Params where
  qcfg := 0b1111100
  font := Config.conventionalFont
  cyclesPerFrame := 10
  onError := .halt

end Sys2Proof
end

