-- ==== Sys2Proof/Machine/State.lean ====
section
/-!
DEFINITION. The state of the CHIP-8 core (10_state.md rules R20 to R41), the reasons a step or a host
operation can stop, and the state after reset (R40). INVENTORY.md lists every field with its rule.
-/

namespace Sys2Proof.Machine

/-- The memory: the bytes that differ from what an unlisted address reads as, by address, in rising
order (`Memory.wf`). An unlisted address reads as the reset contents, `Memory.unlisted` (R40, R52). -/
abbrev Memory := List Host.Cell

/-- `display[y][x]`: 32 rows, top to bottom, of 64 pixels, left to right; `true` is lit (R34). -/
abbrev Display := Vector (Vector Bool 64) 32

/-- The six outcomes of a cycle (R15, R123). -/
inductive CycleOutcome
  | ok
  | invalidInstruction
  | stackOverflow
  | stackUnderflow
  | awaitKeypress
  | awaitRefresh
  deriving DecidableEq, Repr

/-- Why a step could stop with a fault. There is no such reason, so the type has no constructor:
nobody raises one ("No instruction gets a fault; the only stops are the six outcomes and `halted`",
93_implementation_defined.md; an address is never out of range, R43; fetch never fails, R73). Safe:
nothing is stopped that the spec lets go on. -/
inductive Fault
  deriving DecidableEq, Repr

/-- Why something has no meaning in the model. -/
inductive Refusal
  /-- Raised by an arm of `exec` for an instruction that has no meaning yet. No arm is of this kind.
  Safe. -/
  | notModelled (mnemonic : String)
  /-- Raised by the host operation `State.load` for an image of more than 3584 bytes ("refused,
  nothing loaded", R148, D23). No step raises it. Safe. -/
  | imageTooLong (bytes : Nat)
  /-- Raised by the host operation `State.load` once the run has begun: "it does not access `mem` while
  the block runs, except through `load` before the first cycle" (R56), and a load during a run is outside
  the contract, "refuse" (U15 of 93_implementation_defined.md; D34). No step raises it. Safe. -/
  | loadDuringRun
  /-- Raised by the host operation `construct` for parameter values R10 does not allow
  (CYCLES_PER_FRAME = 0). No step raises it. Safe. -/
  | illegalParameters
  deriving DecidableEq, Repr

/-- The state of the block. The first group is the Machine State of R20, the second the input façade
and the frame latches (R33, R38), the third what the model adds. -/
structure State where
  /-- `mem[0..4095]` (R42). -/
  mem : Memory
  /-- `V[0..15]` (R21). -/
  v : Vector Byte 16
  /-- `pc` (R25). During an instruction it is the post-fetch value. -/
  pc : Word
  /-- `I`, the index register (R27). -/
  i : Word
  /-- `stack[0..15]` (R28). -/
  stack : Vector Word 16
  /-- `SP`, the number of entries held, 0..16 (R28). -/
  sp : Fin 17
  /-- `DT`, the delay timer (R31). -/
  dt : Byte
  /-- `ST`, the sound timer (R31). -/
  st : Byte
  /-- `keys[0..15]`, the snapshot of this frame (R32). -/
  keys : KeySnapshot
  /-- `display[0..31][0..63]` (R34). -/
  display : Display
  /-- `keys_prev[0..15]`, the snapshot of the frame before (R33). -/
  keysPrev : KeySnapshot
  /-- `frame_edge`: none, or the key whose edge the last frame start saw (R38). -/
  frameEdge : Option Key
  /-- `cycle_in_frame`: the cycles already issued in the current frame (R38). -/
  cycleInFrame : Nat
  /-- `halted`: ON_ERROR = halt stopped the machine (R38). -/
  halted : Bool
  /-- Whether the sequencer stands inside the loop of `Frame()` (R139): true from a frame start until
  that frame's last cycle, false between frames. The model's own field (notes/assumptions/6.md). -/
  inFrame : Bool
  /-- Whether the run has begun: a frame has started since construction or the last `reset()`. `load` is
  for the time before that (R56, R147). The model's own field (notes/assumptions/9.md). -/
  running : Bool
  /-- The block's outcome output: what the last cycle returned (R37, R123). The model's own field: an
  output that the sequencer reads at the end of that cycle and no instruction reads
  (notes/assumptions/7.md). -/
  out : CycleOutcome
  /-- The parameters fixed at construction (R10, R35). No step changes them
  (notes/assumptions/1.md). -/
  cfg : Params
  /-- Key snapshots the host has announced for the frames to come; when there is none, KEYS() is the
  free value `Config.freeKeys`. The model's own field (notes/assumptions/4.md). -/
  keysIn : List KeySnapshot
  /-- Frames started so far: the index of the free key snapshot. The model's own field. -/
  framesStarted : Nat
  /-- Bytes announced for the RND draws to come; when there is none, RAND() is the free value
  `Config.freeRand`. The model's own field (notes/assumptions/3.md). -/
  randIn : List Byte
  /-- Draws made so far: the index of the free byte. The model's own field. -/
  randDrawn : Nat
  deriving DecidableEq, Repr

/-- Construction: every state item at the value of R40, with the given parameters. The memory lists
nothing, so it reads as FONT_DATA at 0x050..0x09F and 0 elsewhere. -/
def State.constructed (p : Params) : State where
  mem := []
  v := .replicate 16 0
  pc := 0x200
  i := 0
  stack := .replicate 16 0
  sp := 0
  dt := 0
  st := 0
  keys := .replicate 16 false
  display := .replicate 32 (.replicate 64 false)
  keysPrev := .replicate 16 false
  frameEdge := none
  cycleInFrame := 0
  halted := false
  inFrame := false
  running := false
  out := .ok
  cfg := p
  keysIn := []
  framesStarted := 0
  randIn := []
  randDrawn := 0

/-- The machine right after reset (R40, R146), with the default parameters. -/
def State.reset : State := State.constructed Config.defaults

end Sys2Proof.Machine
end

