-- ==== Sys2Proof/Machine/Ops.lean ====
section
/-!
DEFINITION. The named operations over configuration, memory, registers, stack, outcomes and inputs
that the meanings share: the quirk accessors (R35), the memory primitives (R14, R43), the stack
primitives (R29), raising an outcome (R15, the block's only exception mechanism, R123 to R127), the
rewind of a blocking instruction (R78), the fetch (R73) and the draws (R16).
-/

namespace Sys2Proof.Machine

/-- What a meaning or a step answers. -/
abbrev Result := Host.Outcome State Fault Refusal

/-! ## The quirk register QCFG (R35) -/

/-- QCFG bit 0: shifts read VX (true) or VY (false) (R11). -/
def shiftUsesVx (q : BitVec 7) : Bool := q.getLsbD 0

/-- QCFG bit 1: `JP V0, addr` adds VX (true) or V0 (false) (R11). -/
def jumpOffsetUsesVx (q : BitVec 7) : Bool := q.getLsbD 1

/-- QCFG bit 2: OR, AND, XOR write VF := 0 (R11). -/
def logicOpsClearVf (q : BitVec 7) : Bool := q.getLsbD 2

/-- QCFG bit 3: sprite pixels outside the display are discarded (true) or wrap (false) (R11). -/
def clipSprites (q : BitVec 7) : Bool := q.getLsbD 3

/-- QCFG bit 4: DRW waits for the first cycle of a frame (R11). -/
def displayWait (q : BitVec 7) : Bool := q.getLsbD 4

/-- QCFG bit 5: a key edge is a release (true) or a press (false) (R11). -/
def keyWaitOnRelease (q : BitVec 7) : Bool := q.getLsbD 5

/-- QCFG bit 6: `LD [I], Vx` and `LD Vx, [I]` advance I (R11). -/
def indexIncrementOnBulkTransfer (q : BitVec 7) : Bool := q.getLsbD 6

/-! ## Memory (20_memory.md) -/

/-- The address mask: `a & 0xFFF` (R14, R43), as a memory key. -/
def memIndex (a : Word) : Nat := (a &&& 0xFFF).toNat

/-- What an address that the list does not name reads as: the reset contents of R40, FONT_DATA at
0x050..0x09F (glyph d at 0x050 + 5·d, R52) and 0 elsewhere. -/
def Memory.unlisted (font : FontData) (a : Nat) : Byte :=
  if h : fontBase ≤ a ∧ a < fontBase + 80 then
    (font[(a - fontBase) / 5]'(by omega))[(a - fontBase) % 5]'(by omega)
  else 0

/-- The listed byte at an address. -/
def Memory.find : Memory → Nat → Option Byte
  | [], _ => none
  | (k, b) :: m, a => if k = a then some b else Memory.find m a

/-- The byte at an address. -/
def Memory.read (font : FontData) (m : Memory) (a : Nat) : Byte :=
  match Memory.find m a with
  | some b => b
  | none => Memory.unlisted font a

/-- Take an address off the list. -/
def Memory.erase (m : Memory) (a : Nat) : Memory := m.filter fun c => c.1 != a

/-- List an address with a byte, at its place in the rising order. -/
def Memory.insert : Memory → Nat → Byte → Memory
  | [], a, v => [(a, v)]
  | (k, b) :: m, a, v =>
    if a < k then (a, v) :: (k, b) :: m
    else if k = a then (a, v) :: m
    else (k, b) :: Memory.insert m a v

/-- Write a byte. Writing what the unlisted address reads as takes the address off the list, so that
equal memories are equal lists. -/
def Memory.write (font : FontData) (m : Memory) (a : Nat) (v : Byte) : Memory :=
  if v = Memory.unlisted font a then Memory.erase m a else Memory.insert m a v

/-- The canonical form: addresses strictly rising, all below 4096 (R42), and no entry equal to what
the unlisted address reads as. -/
abbrev Memory.wf (font : FontData) (m : Memory) : Prop :=
  m.Pairwise (fun c d => c.1 < d.1) ∧
    ∀ c ∈ m, c.1 < memSize ∧ c.2 ≠ Memory.unlisted font c.1

/-- `MemRead(a, 1)` (R14). -/
def State.memRead (s : State) (a : Word) : Byte := Memory.read s.cfg.font s.mem (memIndex a)

/-- `MemWrite(a, 1, b)` (R14). Every address is writable, the font included (R51). -/
def State.memWrite (s : State) (a : Word) (b : Byte) : State :=
  { s with mem := Memory.write s.cfg.font s.mem (memIndex a) b }

/-! ## Registers (10_state.md) -/

/-- `V[x]` (R13). -/
def State.getV (s : State) (x : Reg) : Byte := s.v[x]

/-- `V[x] <- b` (R13). -/
def State.setV (s : State) (x : Reg) (b : Byte) : State := { s with v := s.v.set x b }

/-- `pc <- target`, the program-counter write (R13, R25). -/
def State.setPc (s : State) (target : Word) : State := { s with pc := target }

/-- `I <- w` (R27). -/
def State.setI (s : State) (w : Word) : State := { s with i := w }

/-- `DT <- b` (R31). -/
def State.setDT (s : State) (b : Byte) : State := { s with dt := b }

/-- `ST <- b` (R31). -/
def State.setST (s : State) (b : Byte) : State := { s with st := b }

/-- `display <- d`, every pixel at once (R34). -/
def State.setDisplay (s : State) (d : Display) : State := { s with display := d }

/-- The call stack and its pointer (R28). -/
def State.setStack (s : State) (entries : Vector Word 16) (sp : Fin 17) : State :=
  { s with stack := entries, sp := sp }

/-- `display[y][x]` (R34). -/
def State.pixel (s : State) (y : Fin 32) (x : Fin 64) : Bool := s.display[y][x]

/-! ## Program counter moves (R26) -/

/-- A skip: 2 more than the post-fetch pc, mod 2^16 (R77). -/
def State.skip (s : State) : State := s.setPc (s.pc + 2)

/-- The conditional skip of SE, SNE, SKP, SKNP. -/
def State.skipIf (s : State) (c : Bool) : State := if c then s.skip else s

/-- The rewind of a blocking instruction: back to its fetch address, mod 2^16 (R78). -/
def State.rewind (s : State) : State := s.setPc (s.pc - 2)

/-! ## The call stack (R28, R29) -/

/-- `Push(w)`, or none when 16 entries are held. -/
def State.push (s : State) (w : Word) : Option State :=
  if h : s.sp.val < 16 then
    some (s.setStack (s.stack.set s.sp.val w) ⟨s.sp.val + 1, by omega⟩)
  else none

/-- `Pop()`, or none when no entry is held. The popped entry keeps its value (R30). -/
def State.pop (s : State) : Option (Word × State) :=
  if h : 0 < s.sp.val then
    some (s.stack[s.sp.val - 1]'(by omega), s.setStack s.stack ⟨s.sp.val - 1, by omega⟩)
  else none

/-! ## Outcomes: the block's exception mechanism (R15, R123 to R127)

Taking an exception is one shared operation, `State.raise`: it puts the outcome on the outcome output
and nothing else. "A non-Ok outcome saves no state, changes no mode or mask, pushes nothing on the
call stack and transfers control nowhere" (R126), "there is no cause register, no faulting-address
register and no saved instruction word" (R125). There is no return from it either (R127): the next
cycle fetches at pc. What the host does after the outcome is the policy of R128, in
Machine/Sequencer.lean. -/

/-- Put an outcome on the outcome output (R15, R126). -/
def State.raise (s : State) (o : CycleOutcome) : State := { s with out := o }

/-- End an instruction with an outcome: it goes on to a next state, whatever the outcome (R124, R126). -/
def raiseOutcome (o : CycleOutcome) (s : State) : Result := .next (s.raise o)

/-- Reaching the end of an instruction's rule: outcome Ok (R15). -/
def finish (s : State) : Result := raiseOutcome .ok s

/-- A blocking instruction that cannot complete: rewind, then raise (R78). -/
def block (o : CycleOutcome) (s : State) : Result := raiseOutcome o s.rewind

/-- The numeric code of an outcome (R123, D19). -/
def outcomeCode : CycleOutcome → Nat
  | .ok => 0
  | .invalidInstruction => 1
  | .stackOverflow => 2
  | .stackUnderflow => 3
  | .awaitKeypress => 4
  | .awaitRefresh => 5

/-- AwaitKeypress and AwaitRefresh: "retry this instruction next frame" (R124). -/
def CycleOutcome.isAwait (o : CycleOutcome) : Bool :=
  match o with
  | .awaitKeypress | .awaitRefresh => true
  | .ok | .invalidInstruction | .stackOverflow | .stackUnderflow => false

/-- InvalidInstruction, StackOverflow and StackUnderflow: what ON_ERROR is about (R128). -/
def CycleOutcome.isError (o : CycleOutcome) : Bool :=
  match o with
  | .invalidInstruction | .stackOverflow | .stackUnderflow => true
  | .ok | .awaitKeypress | .awaitRefresh => false

/-! ## Inputs of a cycle (R16) -/

/-- The byte the next `RAND()` draws (R137): the first the host announced, or the free value. -/
def State.nextRand (s : State) : Byte :=
  match s.randIn with
  | b :: _ => b
  | [] => Config.freeRand s.randDrawn

/-- `RAND()` has been called once more. -/
def State.takeRand (s : State) : State :=
  { s with randIn := s.randIn.tail, randDrawn := s.randDrawn + 1 }

/-- The snapshot the next `KEYS()` gives (R134): the first the host announced, or the free value. -/
def State.nextKeys (s : State) : KeySnapshot :=
  match s.keysIn with
  | k :: _ => k
  | [] => Config.freeKeys s.framesStarted

/-- `KEYS()` has been called once more: another frame has started. -/
def State.takeKeys (s : State) : State :=
  { s with keysIn := s.keysIn.tail, framesStarted := s.framesStarted + 1 }

/-- The `key_edge` input of a cycle: the edge of the frame, the same for every cycle of it (R135). -/
def State.keyEdge (s : State) : Option Key := s.frameEdge

/-- The `refresh_ready` input of a cycle: true exactly for the first cycle of a frame (R136). -/
def State.refreshReady (s : State) : Bool := s.cycleInFrame = 0

/-! ## Fetch (R73) -/

/-- The word at pc: the byte at pc is bits 15:8, each byte address masked on its own (R44, R45). -/
def State.fetchWord (s : State) : Word := wordOfBytes (s.memRead s.pc) (s.memRead (s.pc + 1))

/-- pc after the fetch: 2 more, mod 2^16 (R73). -/
def State.afterFetch (s : State) : State := s.setPc (s.pc + 2)

end Sys2Proof.Machine
end

