-- ==== Sys2Proof/Machine/Flags.lean ====
section
/-!
DEFINITION. The flag computations. VF is the only flag (R24); an instruction that writes it writes it
last (R22, R76).
-/

namespace Sys2Proof.Machine

/-- A flag value as a byte: 1 or 0. -/
def flagByte (c : Bool) : Byte := if c then 1 else 0

/-- The carry of ADD: bit 8 of the 9-bit sum (R98). -/
def carryOut (a b : Byte) : Byte := flagByte ((a.setWidth 9 + b.setWidth 9).getLsbD 8)

/-- The no-borrow flag of `a - b`: 1 when a ≥ b (R93, R99, R100). -/
def noBorrow (a b : Byte) : Byte := flagByte (decide (b ≤ a))

/-- The bit SHR shifts out: bit 0 of the source (R101). -/
def lowBitOut (src : Byte) : Byte := flagByte (src.getLsbD 0)

/-- The bit SHL shifts out: bit 7 of the source (R102). -/
def highBitOut (src : Byte) : Byte := flagByte (src.getLsbD 7)

/-- Write VF, the last effect of an instruction that has a flag (R22, R76). -/
def State.setFlag (s : State) (f : Byte) : State := s.setV VF f

/-- The flag rule of OR, AND, XOR: VF := 0 when `logic_ops_clear_vf`, else no write (R95). -/
def State.clearFlagAfterLogic (s : State) : State :=
  if logicOpsClearVf s.cfg.qcfg then s.setFlag 0 else s

end Sys2Proof.Machine
end

