-- ==== Sys2Proof/Machine/Operands.lean ====
section
/-!
DEFINITION. The operand forms of the instructions: immediates (R62), the registers a quirk selects
(R88, R101, R102), the key and the digit a register names (R110, R118), and the one addressing mode,
"the byte at I plus a constant offset" (46_transfer.md).
-/

namespace Sys2Proof.Machine

/-- The source of a shift: V[x] when `shift_uses_vx`, else V[y] (R101, R102). -/
def shiftSource (s : State) (x y : Reg) : Byte :=
  if shiftUsesVx s.cfg.qcfg then s.getV x else s.getV y

/-- The offset of `JP V0, addr`: V[x] when `jump_offset_uses_vx`, else V[0] (R88). -/
def jumpOffset (s : State) (x : Reg) : Byte :=
  if jumpOffsetUsesVx s.cfg.qcfg then s.getV x else s.getV 0

/-- The low 4 bits of a register as a number: `V[x] & 0xF` (R110, R118). -/
def lowNibble (b : Byte) : Fin 16 := (b.extractLsb' 0 4).toFin

/-- The key that SKP and SKNP test (R110). -/
def keyHeld (s : State) (x : Reg) : Bool := s.keys[lowNibble (s.getV x)]

/-- The address of the glyph that a register's low 4 bits name: `0x050 + 5 * (V[x] & 0xF)` (R118). -/
def glyphAddr (b : Byte) : Word := 0x050 + 5 * BitVec.ofNat 16 (lowNibble b).val

/-- The address of the byte at I plus a constant offset, mod 2^16; the access masks it (R43, R48). -/
def indexed (s : State) (k : Nat) : Word := s.i + BitVec.ofNat 16 k

/-- The registers of a bulk transfer, V0..Vx in ascending order (R49, R120, R121). -/
def regsUpTo (x : Reg) : List Reg := (List.finRange 16).take (x.val + 1)

/-- I after a bulk transfer: past the range when `index_increment_on_bulk_transfer`, else as it was
(R120, R121). -/
def bulkIndex (s : State) (x : Reg) : Word :=
  if indexIncrementOnBulkTransfer s.cfg.qcfg then indexed s (x.val + 1) else s.i

/-- `v / 100`, the hundreds digit (R119). -/
def hundreds (b : Byte) : Byte := b / 100

/-- `(v / 10) % 10`, the tens digit (R119). -/
def tens (b : Byte) : Byte := b / 10 % 10

/-- `v % 10`, the ones digit (R119). -/
def ones (b : Byte) : Byte := b % 10

end Sys2Proof.Machine
end

