-- ==== Sys2Proof/Machine/Alu.lean ====
section
/-!
DEFINITION. Arithmetic and logic, family 0x8 (43_alu.md, rules R93 to R102). The operands are read
before any write, and VF is written last (R76).
-/

namespace Sys2Proof.Machine

/-- `LD Vx, Vy` (R94). -/
def execLdReg (x y : Reg) (s : State) : Result := finish (s.setV x (s.getV y))

/-- `OR Vx, Vy` (R95). -/
def execOrReg (x y : Reg) (s : State) : Result :=
  finish (s.setV x (s.getV x ||| s.getV y)).clearFlagAfterLogic

/-- `AND Vx, Vy` (R96). -/
def execAndReg (x y : Reg) (s : State) : Result :=
  finish (s.setV x (s.getV x &&& s.getV y)).clearFlagAfterLogic

/-- `XOR Vx, Vy` (R97). -/
def execXorReg (x y : Reg) (s : State) : Result :=
  finish (s.setV x (s.getV x ^^^ s.getV y)).clearFlagAfterLogic

/-- `ADD Vx, Vy` (R98). -/
def execAddReg (x y : Reg) (s : State) : Result :=
  finish ((s.setV x (s.getV x + s.getV y)).setFlag (carryOut (s.getV x) (s.getV y)))

/-- `SUB Vx, Vy` (R99). -/
def execSubReg (x y : Reg) (s : State) : Result :=
  finish ((s.setV x (s.getV x - s.getV y)).setFlag (noBorrow (s.getV x) (s.getV y)))

/-- `SUBN Vx, Vy` (R100). -/
def execSubnReg (x y : Reg) (s : State) : Result :=
  finish ((s.setV x (s.getV y - s.getV x)).setFlag (noBorrow (s.getV y) (s.getV x)))

/-- `SHR Vx, Vy` (R101). -/
def execShr (x y : Reg) (s : State) : Result :=
  finish ((s.setV x (shiftSource s x y >>> 1)).setFlag (lowBitOut (shiftSource s x y)))

/-- `SHL Vx, Vy` (R102). -/
def execShl (x y : Reg) (s : State) : Result :=
  finish ((s.setV x (shiftSource s x y <<< 1)).setFlag (highBitOut (shiftSource s x y)))

end Sys2Proof.Machine
end

