-- ==== Sys2Proof/Machine/Control.lean ====
section
/-!
DEFINITION. Control transfer and skips (41_control.md, rules R81 to R88). In every meaning `s.pc` is
the post-fetch value.
-/

namespace Sys2Proof.Machine

/-- `RET` (R81): pop into pc, or StackUnderflow with nothing written. -/
def execRet (s : State) : Result :=
  match s.pop with
  | some (w, t) => finish (t.setPc w)
  | none => raiseOutcome .stackUnderflow s

/-- `JP addr` (R82). -/
def execJp (nnn : Addr) (s : State) : Result := finish (s.setPc (zextAddr nnn))

/-- `CALL addr` (R83): push the post-fetch pc and jump, or StackOverflow with nothing written. -/
def execCall (nnn : Addr) (s : State) : Result :=
  match s.push s.pc with
  | some t => finish (t.setPc (zextAddr nnn))
  | none => raiseOutcome .stackOverflow s

/-- `SE Vx, byte` (R84). -/
def execSeByte (x : Reg) (nn : Byte) (s : State) : Result := finish (s.skipIf (s.getV x == nn))

/-- `SNE Vx, byte` (R85). -/
def execSneByte (x : Reg) (nn : Byte) (s : State) : Result := finish (s.skipIf (s.getV x != nn))

/-- `SE Vx, Vy` (R86). -/
def execSeReg (x y : Reg) (s : State) : Result := finish (s.skipIf (s.getV x == s.getV y))

/-- `SNE Vx, Vy` (R87). -/
def execSneReg (x y : Reg) (s : State) : Result := finish (s.skipIf (s.getV x != s.getV y))

/-- `JP V0, addr` (R88): the target is 16 bits, stored unmasked. -/
def execJpV0 (x : Reg) (nnn : Addr) (s : State) : Result :=
  finish (s.setPc (zextAddr nnn + zext16 (jumpOffset s x)))

end Sys2Proof.Machine
end

