-- ==== Sys2Proof/Machine/Display.lean ====
section
/-!
DEFINITION. The display instructions and the sprite blit (44_display.md, rules R104 to R109).
-/

namespace Sys2Proof.Machine

/-- Every pixel false (R104). -/
def blankDisplay : Display := .replicate 32 (.replicate 64 false)

/-- The bit of column c of a sprite row: bit 7 is column 0, the leftmost (R107, D8). -/
def spriteBit (row : Byte) (c : Nat) : Bool := row.getLsbD (7 - c)

/-- The pixel that row r, column c of a sprite at (x0, y0) targets, as (row, column): discarded
outside the display when clipping, else wrapped on both axes (R106). -/
def spriteTarget (clip : Bool) (x0 y0 r c : Nat) : Option (Fin 32 × Fin 64) :=
  if clip && (decide (64 ≤ x0 + c) || decide (32 ≤ y0 + r)) then none
  else some (Fin.ofNat 32 (y0 + r), Fin.ofNat 64 (x0 + c))

/-- One pixel of a sprite: a bit 1 toggles its target and collides if the target was lit (R105). The
blit's state is the display and whether a lit pixel has become clear. -/
def blitPixel (clip : Bool) (x0 y0 : Nat) (row : Byte) (r : Nat) (acc : Display × Bool) (c : Nat) :
    Display × Bool :=
  match spriteTarget clip x0 y0 r c with
  | none => acc
  | some (py, px) =>
    if spriteBit row c then
      (acc.1.set py (acc.1[py].set px (!acc.1[py][px])), acc.2 || acc.1[py][px])
    else acc

/-- One row of a sprite: columns 0 to 7 (R105). -/
def blitRow (clip : Bool) (x0 y0 : Nat) (row : Byte) (r : Nat) (acc : Display × Bool) :
    Display × Bool :=
  (List.range 8).foldl (blitPixel clip x0 y0 row r) acc

/-- Row r of the sprite: the byte at I + r (R48, R105). -/
def spriteRow (s : State) (r : Nat) : Byte := s.memRead (indexed s r)

/-- `V[x] % 64`, the start column (R105, R106). -/
def startColumn (s : State) (x : Reg) : Nat := (s.getV x).toNat % 64

/-- `V[y] % 32`, the start row (R105, R106). -/
def startRow (s : State) (y : Reg) : Nat := (s.getV y).toNat % 32

/-- The sprite blit: rows 0 to n-1; the display after it, and whether it collided (R105). -/
def blit (s : State) (x y : Reg) (n : Nat) : Display × Bool :=
  (List.range n).foldl
    (fun acc r =>
      blitRow (clipSprites s.cfg.qcfg) (startColumn s x) (startRow s y) (spriteRow s r) r acc)
    (s.display, false)

/-- `CLS` (R104). It does not wait (D10). -/
def execCls (s : State) : Result := finish (s.setDisplay blankDisplay)

/-- A DRW waits when `display_wait` and the cycle is not the frame's first (R105, R136). -/
def drawMustWait (s : State) : Bool := displayWait s.cfg.qcfg && !s.refreshReady

/-- `DRW Vx, Vy, nibble` (R105): wait and rewind, or blit and write VF last. -/
def execDrw (x y : Reg) (n : Nibble) (s : State) : Result :=
  if drawMustWait s then block .awaitRefresh s
  else
    finish ((s.setDisplay (blit s x y n.toNat).1).setFlag (flagByte (blit s x y n.toNat).2))

end Sys2Proof.Machine
end

