-- ==== Sys2Proof/Machine/Immediate.lean ====
section
/-!
DEFINITION. Register-immediate instructions (42_register_immediate.md, rules R89 to R92).
-/

namespace Sys2Proof.Machine

/-- `LD Vx, byte` (R89). -/
def execLdByte (x : Reg) (nn : Byte) (s : State) : Result := finish (s.setV x nn)

/-- `ADD Vx, byte` (R90): mod 2^8, no flag. -/
def execAddByte (x : Reg) (nn : Byte) (s : State) : Result := finish (s.setV x (s.getV x + nn))

/-- `LD I, addr` (R91). -/
def execLdI (nnn : Addr) (s : State) : Result := finish (s.setI (zextAddr nnn))

/-- `RND Vx, byte` (R92): one draw, under the mask. -/
def execRnd (x : Reg) (nn : Byte) (s : State) : Result :=
  finish (s.takeRand.setV x (s.nextRand &&& nn))

end Sys2Proof.Machine
end

