-- ==== Sys2Proof/Machine/Keys.lean ====
section
/-!
DEFINITION. The key instructions (45_keys.md, rules R110 to R113).
-/

namespace Sys2Proof.Machine

/-- `SKP Vx` (R111). -/
def execSkp (x : Reg) (s : State) : Result := finish (s.skipIf (keyHeld s x))

/-- `SKNP Vx` (R112). -/
def execSknp (x : Reg) (s : State) : Result := finish (s.skipIf (!keyHeld s x))

/-- `LD Vx, K` (R113): the key of the frame's edge, or rewind and AwaitKeypress. -/
def execLdVxK (x : Reg) (s : State) : Result :=
  match s.keyEdge with
  | some k => finish (s.setV x (BitVec.ofNat 8 k.val))
  | none => block .awaitKeypress s

end Sys2Proof.Machine
end

