-- ==== Sys2Proof/Machine/Transfer.lean ====
section
/-!
DEFINITION. Register, timer and memory transfers, family 0xF (46_transfer.md, rules R114 to R121).
-/

namespace Sys2Proof.Machine

/-- `LD Vx, DT` (R114). -/
def execLdVxDT (x : Reg) (s : State) : Result := finish (s.setV x s.dt)

/-- `LD DT, Vx` (R115). -/
def execLdDTVx (x : Reg) (s : State) : Result := finish (s.setDT (s.getV x))

/-- `LD ST, Vx` (R116). -/
def execLdSTVx (x : Reg) (s : State) : Result := finish (s.setST (s.getV x))

/-- `ADD I, Vx` (R117): mod 2^16, no flag. -/
def execAddI (x : Reg) (s : State) : Result := finish (s.setI (s.i + zext16 (s.getV x)))

/-- `LD F, Vx` (R118). -/
def execLdF (x : Reg) (s : State) : Result := finish (s.setI (glyphAddr (s.getV x)))

/-- `LD B, Vx` (R119): three bytes, offset 0 first, each address masked on its own (R49). -/
def execLdB (x : Reg) (s : State) : Result :=
  finish (((s.memWrite (indexed s 0) (hundreds (s.getV x))).memWrite (indexed s 1)
    (tens (s.getV x))).memWrite (indexed s 2) (ones (s.getV x)))

/-- Store V0..Vx at I..I+x, offset 0 first (R49, R120). -/
def storeBulk (s : State) (x : Reg) : State :=
  (regsUpTo x).foldl (fun t k => t.memWrite (indexed t k.val) (t.getV k)) s

/-- Load V0..Vx from I..I+x, offset 0 first (R49, R121). -/
def loadBulk (s : State) (x : Reg) : State :=
  (regsUpTo x).foldl (fun t k => t.setV k (t.memRead (indexed t k.val))) s

/-- `LD [I], Vx` (R120). -/
def execStoreRegs (x : Reg) (s : State) : Result := finish ((storeBulk s x).setI (bulkIndex s x))

/-- `LD Vx, [I]` (R121). -/
def execLoadRegs (x : Reg) (s : State) : Result := finish ((loadBulk s x).setI (bulkIndex s x))

end Sys2Proof.Machine
end

