-- ==== Sys2Proof/Machine/Sequencer.lean ====
section
/-!
DEFINITION. The frame sequencer (60_exceptions.md rules R128, R132 to R136, R139): the frame start
(timer tick, key latch, edge computation), when a cycle is due, and what the end of a cycle does with
its outcome. The cycle itself is in Machine/Cycle.lean.
-/

namespace Sys2Proof.Machine

/-- A timer one tick later: one less, never below zero (R132). -/
def countDown (b : Byte) : Byte := if b = 0 then 0 else b - 1

/-- `tick_timers()` (R132): both timers, independently. -/
def State.tickTimers (s : State) : State := (s.setDT (countDown s.dt)).setST (countDown s.st)

/-- Whether a key has an edge of the configured kind between two snapshots (R135). -/
def hasEdge (onRelease : Bool) (prev cur : KeySnapshot) (k : Key) : Bool :=
  if onRelease then prev[k] && !cur[k] else !prev[k] && cur[k]

/-- `EdgeDetect` (R135): ascending, the lowest index wins. -/
def edgeDetect (onRelease : Bool) (prev cur : KeySnapshot) : Option Key :=
  (List.finRange 16).find? (hasEdge onRelease prev cur)

/-- The key latch (R134): `keys_prev <- keys; keys <- KEYS()`. -/
def State.latchKeys (s : State) : State :=
  { s.takeKeys with keysPrev := s.keys, keys := s.nextKeys }

/-- The frame's key edge, from the two snapshots (R135). -/
def State.computeEdge (s : State) : State :=
  { s with frameEdge := edgeDetect (keyWaitOnRelease s.cfg.qcfg) s.keysPrev s.keys }

/-- The loop of `Frame()` is entered with `cycle_in_frame = 0` (R139); with the first frame the run has
begun (R149). -/
def State.enterFrame (s : State) : State :=
  { s with cycleInFrame := 0, inFrame := true, running := true }

/-- The frame start of R138: tick, latch, edge (D25), and the loop of `Frame()` entered. -/
def frameStart (s : State) : State := s.tickTimers.latchKeys.computeEdge.enterFrame

/-- A cycle is due: the sequencer is in a frame whose budget is not used up (R139). -/
def State.cycleDue (s : State) : Bool :=
  s.inFrame && decide (s.cycleInFrame < s.cfg.cyclesPerFrame)

/-- ON_ERROR = halt met an error outcome (R128). -/
def stopsMachine (s : State) : Bool := s.out.isError && s.cfg.onError == .halt

/-- The end of a cycle (R139): it is counted, and its outcome ends the frame, halts the machine or
lets the frame go on while its budget lasts. -/
def endCycle (s : State) : State :=
  { s with
    cycleInFrame := s.cycleInFrame + 1
    halted := s.halted || stopsMachine s
    inFrame :=
      !s.out.isAwait && !stopsMachine s && decide (s.cycleInFrame + 1 < s.cfg.cyclesPerFrame) }

/-- An invalid word (R75): InvalidInstruction, with nothing written and pc at the post-fetch value. -/
def invalidWord (s : State) : Result := raiseOutcome .invalidInstruction s

end Sys2Proof.Machine
end

