-- ==== Sys2Proof/Machine/Cycle.lean ====
section
/-!
DEFINITION. One cycle (40_cycle.md rule R72), one cycle issued by the sequencer, and one whole frame
(60_exceptions.md rule R139).
-/

namespace Sys2Proof.Machine

/-- `Cycle(key_edge, refresh_ready)` of R72: fetch, decode, execute. The two inputs are read from the
frame latches by `State.keyEdge` and `State.refreshReady`. -/
def cycle (s : State) : Result :=
  match decodeWord s.fetchWord with
  | .ok i => exec i s.afterFetch
  | .error _ => invalidWord s.afterFetch

/-- A cycle and what the sequencer does after it (R139). -/
def issueCycle (s : State) : Result :=
  match cycle s with
  | .next t => .next (endCycle t)
  | .fault r => .fault r
  | .refused r => .refused r

/-- The `while` loop of `Frame()` (R139), with at most `n` cycles left. -/
def frameLoop : Nat → State → Result
  | 0, s => .next { s with inFrame := false }
  | n + 1, s =>
    match issueCycle s with
    | .next t => if t.inFrame then frameLoop n t else .next t
    | .fault r => .fault r
    | .refused r => .refused r

/-- `Frame()` of R139, the host's call of one whole frame. -/
def frame (s : State) : Result :=
  if s.halted then .next s else frameLoop s.cfg.cyclesPerFrame (frameStart s)

end Sys2Proof.Machine
end

