-- ==== Sys2Proof/Machine/Step.lean ====
section
/-!
DEFINITION. The step: "the model has one agent, the core, whose steps are cycles and frame starts"
(R19). Also where the host's checks put an instruction so that the next step runs it.
-/

namespace Sys2Proof.Machine

/-- One step. A halted machine keeps its state (R139); in a frame with budget left a cycle is issued;
between frames the next frame starts. -/
def step (s : State) : Host.Outcome State Fault Refusal :=
  if s.halted then .next s
  else if s.cycleDue then issueCycle s
  else .next (frameStart s)

/-- The sequencer stands where the next step issues a cycle: not halted, in a frame whose budget is
not used up. Where it already stands there, nothing changes. -/
def State.readyForCycle (s : State) : State :=
  { s with
    halted := false
    inFrame := true
    running := true
    cycleInFrame := if s.cycleDue then s.cycleInFrame else 0
    cfg := { s.cfg with cyclesPerFrame := max 1 s.cfg.cyclesPerFrame } }

/-- The state with a word of the opcode table at pc, so that the very next step fetches and runs it
(notes/assumptions/8.md). It stands for `load` and for the frame start that precedes the first cycle
of a frame. -/
def State.withFetchWord (s : State) (nbits w : Nat) : State :=
  ((s.memWrite s.pc (highByte (tableWord nbits w))).memWrite (s.pc + 1)
    (lowByte (tableWord nbits w))).readyForCycle

end Sys2Proof.Machine
end

