-- ==== Sys2Proof/Machine/HostOps.lean ====
section
/-!
DEFINITION. The operations the block offers the host (60_exceptions.md rule R141) that are not part of
a step: construction, `reset()`, `load`, `set_key_state`, `read_display`, `read_timers`; and the
model's way for the host to announce its inputs. `tick_timers` is in Machine/Sequencer.lean,
`fetch_and_decode` and `execute` are the two halves of `cycle`, `Frame` is `frame`.
-/

namespace Sys2Proof.Machine

/-- Construction with parameter values (R146, R149); refused where R10 does not allow them. -/
def construct (p : Params) : Result :=
  if p.legal then .next (State.constructed p) else .refused .illegalParameters

/-- `reset()` (R146): every state item at its value of R40; the parameters keep their construction
values (R36). What the host has announced and how many free values were drawn is the host's, not the
block's, and stays. -/
def State.hostReset (s : State) : State :=
  { State.constructed s.cfg with
    keysIn := s.keysIn
    framesStarted := s.framesStarted
    randIn := s.randIn
    randDrawn := s.randDrawn }

/-- Bytes written from offset `k` of the program area on: `mem[0x200 + k] <- b` (R147). -/
def storeImage (s : State) : Nat → List Byte → State
  | _, [] => s
  | k, b :: bs => storeImage (s.memWrite (0x200 + BitVec.ofNat 16 k) b) (k + 1) bs

/-- `load(bytes)` (R147), which follows `reset()` or construction and precedes the first frame. It is
refused with nothing written when the image is longer than 3584 bytes (R148), and when the run has
already begun (R56, U15). -/
def State.load (s : State) (image : List Byte) : Result :=
  if progMax < image.length then .refused (.imageTooLong image.length)
  else if s.running then .refused .loadDuringRun
  else .next (storeImage s 0 image)

/-- `set_key_state(index, pressed)` (R32, R141). A frame start does it for all 16 keys (R134). -/
def State.setKeyState (s : State) (k : Key) (pressed : Bool) : State :=
  { s with keys := s.keys.set k pressed }

/-- `read_display()` (R34, R141). -/
def State.readDisplay (s : State) : Display := s.display

/-- `read_timers()`: (delay, sound) (R31, R141). -/
def State.readTimers (s : State) : Byte × Byte := (s.dt, s.st)

/-- The host announces the snapshot of one more frame to come (R134). -/
def State.announceKeys (s : State) (keys : KeySnapshot) : State :=
  { s with keysIn := s.keysIn ++ [keys] }

/-- One more random byte to come is fixed (R137). -/
def State.announceRand (s : State) (b : Byte) : State := { s with randIn := s.randIn ++ [b] }

end Sys2Proof.Machine
end

