-- ==== Sys2Proof/Safety.lean ====
section
/-!
DEFINITION. The terms the claims use: the invariant of the machine, and the predicates that say what an
instruction leaves unchanged.
-/

namespace Sys2Proof.Machine

/-- What every state of a run satisfies: the memory is canonical (R42), the parameters are legal (R10),
the cycle count stays within the budget (R38), a frame in progress has budget left and is not halted
(R139), only an error outcome under ON_ERROR = halt halts (R128), and the frame's edge is the edge
between the two snapshots (R135), and before the run has begun nothing of it has happened (R38, R149). -/
structure Inv (s : State) : Prop where
  memory : Memory.wf s.cfg.font s.mem
  parameters : s.cfg.legal
  budget : s.cycleInFrame ≤ s.cfg.cyclesPerFrame
  inFrame : s.inFrame = true → s.cycleInFrame < s.cfg.cyclesPerFrame ∧ s.halted = false
  halted : s.halted = true → s.cfg.onError = .halt ∧ s.out.isError = true
  beforeTheRun :
    s.running = false → s.inFrame = false ∧ s.cycleInFrame = 0 ∧ s.halted = false
  edge : s.frameEdge = edgeDetect (keyWaitOnRelease s.cfg.qcfg) s.keysPrev s.keys

/-- Every general register outside `written` holds what it held. -/
def RegsKept (written : Reg → Prop) (s t : State) : Prop := ∀ r, ¬written r → t.getV r = s.getV r

/-- Every address reads as before. -/
def MemKept (s t : State) : Prop := ∀ a : Word, t.memRead a = s.memRead a

/-- Every address outside the stored ones (compared as masked addresses, R43) reads as before. -/
def MemKeptOutside (stored : List Word) (s t : State) : Prop :=
  ∀ a : Word, (∀ b ∈ stored, memIndex a ≠ memIndex b) → t.memRead a = s.memRead a

/-- The call stack, stale entries included, and its pointer are unchanged. -/
def StackKept (s t : State) : Prop := t.stack = s.stack ∧ t.sp = s.sp

/-- Both timers are unchanged. -/
def TimersKept (s t : State) : Prop := t.dt = s.dt ∧ t.st = s.st

/-- Every pixel is unchanged. -/
def DisplayKept (s t : State) : Prop := ∀ y x, t.pixel y x = s.pixel y x

/-- What belongs to the frame and its parameters is unchanged: QCFG and the other parameters, the key
snapshots, the frame latches, the sequencer's place (that the run has begun included) and the announced
snapshots (R79). -/
def FrameKept (s t : State) : Prop :=
  t.cfg = s.cfg ∧ t.keys = s.keys ∧ t.keysPrev = s.keysPrev ∧ t.frameEdge = s.frameEdge ∧
    t.cycleInFrame = s.cycleInFrame ∧ t.halted = s.halted ∧ t.inFrame = s.inFrame ∧
    t.running = s.running ∧ t.keysIn = s.keysIn ∧ t.framesStarted = s.framesStarted

/-- No random byte has been drawn. -/
def DrawsKept (s t : State) : Prop := t.randIn = s.randIn ∧ t.randDrawn = s.randDrawn

/-- Everything but the general registers, pc, the outcome output and the random draws is unchanged. -/
def RestKept (s t : State) : Prop :=
  t.i = s.i ∧ MemKept s t ∧ StackKept s t ∧ TimersKept s t ∧ DisplayKept s t ∧ FrameKept s t

/-- The frame of an instruction that writes general registers only. -/
def OnlyRegs (written : Reg → Prop) (s t : State) : Prop :=
  RegsKept written s t ∧ RestKept s t ∧ DrawsKept s t

/-- The frame of an instruction that moves pc only. -/
def OnlyPc (s t : State) : Prop := OnlyRegs (fun _ => False) s t

/-! ## What each instruction may write (R23, R27, R29, R31, R34, R48, R79) -/

/-- The general registers an instruction may write under a QCFG (R23, R24). -/
def writesReg (q : BitVec 7) : Instr → Reg → Prop
  | .ldByte x _, r | .addByte x _, r | .rnd x _, r | .ldReg x _, r | .ldVxDT x, r
  | .ldVxK x, r => r = x
  | .orReg x _, r | .andReg x _, r | .xorReg x _, r => r = x ∨ (q.getLsbD 2 = true ∧ r = VF)
  | .addReg x _, r | .subReg x _, r | .subnReg x _, r | .shr x _, r | .shl x _, r =>
    r = x ∨ r = VF
  | .drw _ _ _, r => r = VF
  | .loadRegs x, r => r ≤ x
  | .cls, _ | .ret, _ | .jp _, _ | .call _, _ | .seByte _ _, _ | .sneByte _ _, _ | .seReg _ _, _
  | .sneReg _ _, _ | .ldI _, _ | .jpV0 _ _, _ | .skp _, _ | .sknp _, _ | .ldDTVx _, _
  | .ldSTVx _, _ | .addI _, _ | .ldF _, _ | .ldB _, _ | .storeRegs _, _ => False

/-- The instructions that may move pc from its post-fetch value (R26): the jumps, CALL and RET, the skips,
and the two that rewind while they wait. -/
def movesPc : Instr → Prop
  | .jp _ | .call _ | .ret | .jpV0 _ _ | .seByte _ _ | .sneByte _ _ | .seReg _ _ | .sneReg _ _
  | .skp _ | .sknp _ | .ldVxK _ | .drw _ _ _ => True
  | .cls | .ldByte _ _ | .addByte _ _ | .ldReg _ _ | .orReg _ _ | .andReg _ _ | .xorReg _ _
  | .addReg _ _ | .subReg _ _ | .shr _ _ | .subnReg _ _ | .shl _ _ | .ldI _ | .rnd _ _ | .ldVxDT _
  | .ldDTVx _ | .ldSTVx _ | .addI _ | .ldF _ | .ldB _ | .storeRegs _ | .loadRegs _ => False

/-- The instructions that may write I (R27): the bulk transfers only when QCFG bit 6 is set. -/
def writesI (q : BitVec 7) (i : Instr) : Prop :=
  (∃ nnn, i = .ldI nnn) ∨ (∃ x, i = .addI x) ∨ (∃ x, i = .ldF x) ∨
    (q.getLsbD 6 = true ∧ ((∃ x, i = .storeRegs x) ∨ ∃ x, i = .loadRegs x))

/-- The instructions that store to memory, and where (R48). -/
def storedBytes (s : State) : Instr → List Word
  | .ldB _ => [indexed s 0, indexed s 1, indexed s 2]
  | .storeRegs x => (List.range (x.val + 1)).map (indexed s)
  | _ => []

/-! ## The sprite as a set of pixels (R105, R106, R107) -/

/-- Whether `DRW Vx, Vy, n` toggles the pixel in row `py`, column `px`: the pixel lies `r` rows below
and `c` columns right of the start, both counted round the display, within the sprite's n rows and 8
columns, bit 7 - c of the byte at I + r is 1, and under `clip_sprites` (QCFG bit 3) the sprite reaches
it without leaving the display. -/
def spriteToggles (s : State) (x y : Reg) (n : Nibble) (py : Fin 32) (px : Fin 64) : Bool :=
  let x0 := (s.getV x).toNat % 64
  let y0 := (s.getV y).toNat % 32
  let c := (px.val + 64 - x0) % 64
  let r := (py.val + 32 - y0) % 32
  decide (r < n.toNat) && decide (c < 8) && (s.memRead (indexed s r)).getLsbD (7 - c) &&
    (!s.cfg.qcfg.getLsbD 3 || (decide (x0 + c < 64) && decide (y0 + r < 32)))

end Sys2Proof.Machine
end

