-- ==== Sys2Proof/Certificates/Slice0/Obligations.lean ====
section
/-!
DEFINITION. The statements about the machine, for the provers. Each docstring names the rule of spec/
it formalises, or, where it rests on a choice the spec marks as its own, says so.

In all of them `s.pc` of a state given to `exec` is the post-fetch value (R73), and QCFG's bits are
read by their numbers in R35.
-/

open Sys2Proof Sys2Proof.Machine

/-! ## Encoding -/

/-- One word of every family, written from the patterns of R63, decodes to its instruction. The words
of family 0xE rest on the spec's own choice D6. -/
def Obligations.SpecWordsDecode : Prop :=
  decodeWord 0x00E0 = .ok .cls ∧ decodeWord 0x00EE = .ok .ret ∧
  decodeWord 0x134A = .ok (.jp 0x34A) ∧ decodeWord 0x2210 = .ok (.call 0x210) ∧
  decodeWord 0x3310 = .ok (.seByte 3 0x10) ∧ decodeWord 0x4311 = .ok (.sneByte 3 0x11) ∧
  decodeWord 0x5120 = .ok (.seReg 1 2) ∧ decodeWord 0x6A9C = .ok (.ldByte 0xA 0x9C) ∧
  decodeWord 0x71FF = .ok (.addByte 1 0xFF) ∧ decodeWord 0x812E = .ok (.shl 1 2) ∧
  decodeWord 0x9120 = .ok (.sneReg 1 2) ∧ decodeWord 0xA300 = .ok (.ldI 0x300) ∧
  decodeWord 0xB220 = .ok (.jpV0 2 0x220) ∧ decodeWord 0xC20F = .ok (.rnd 2 0x0F) ∧
  decodeWord 0xD123 = .ok (.drw 1 2 3) ∧ decodeWord 0xE49E = .ok (.skp 4) ∧
  decodeWord 0xFA33 = .ok (.ldB 0xA)

/-- Decoding the two bytes of a well-formed instruction gives it back, with the bytes after it, for
every instruction and every operand (R59, R60, R63). -/
def Obligations.DecodeInvertsEncode : Prop :=
  ∀ (i : Instr) (rest : List Byte), i.wellFormed = true →
    decode (encodeBytes i ++ rest) = .ok (i, rest)

/-- Each word has one meaning: an instruction that a word decodes to is well formed and is encoded by
that word only. -/
def Obligations.EncodeInvertsDecode : Prop :=
  ∀ (w : Word) (i : Instr), decodeWord w = .ok i → i.wellFormed = true ∧ encode i = w

/-- Which words of each family are instructions, by the digits of the word (R64 to R68), and that a word
that is none ends a cycle with InvalidInstruction (R75). The values 0x9E and 0xA1 of family 0xE (R67) are
the spec's own choice D6 (notes/assumptions/13.md). -/
def Obligations.FamiliesSelectOnTheirFields : Prop :=
  decodeWord 0x00E0 = .ok .cls ∧ decodeWord 0x00EE = .ok .ret ∧
  ∀ w : Word,
    (w.toNat / 4096 = 0 → ((∃ i, decodeWord w = .ok i) ↔ w = 0x00E0 ∨ w = 0x00EE)) ∧
    (w.toNat / 4096 = 5 ∨ w.toNat / 4096 = 9 →
      ((∃ i, decodeWord w = .ok i) ↔ w.toNat % 16 = 0)) ∧
    (w.toNat / 4096 = 8 →
      ((∃ i, decodeWord w = .ok i) ↔ w.toNat % 16 ∈ [0, 1, 2, 3, 4, 5, 6, 7, 14])) ∧
    (w.toNat / 4096 = 14 →
      ((∃ i, decodeWord w = .ok i) ↔ w.toNat % 256 ∈ [0x9E, 0xA1])) ∧
    (w.toNat / 4096 = 15 →
      ((∃ i, decodeWord w = .ok i) ↔
        w.toNat % 256 ∈ [0x07, 0x0A, 0x15, 0x18, 0x1E, 0x29, 0x33, 0x55, 0x65])) ∧
    (w.toNat / 4096 ∈ [1, 2, 3, 4, 6, 7, 10, 11, 12, 13] → ∃ i, decodeWord w = .ok i) ∧
    ((¬∃ i, decodeWord w = .ok i) → ∀ s : State, s.fetchWord = w →
      ∃ t, cycle s = .next t ∧ t.out = .invalidInstruction)

/-! ## The cycle and the step -/

/-- A step where a cycle is due runs the instruction that the two bytes at pc decode to, on the state
with pc past them; then the cycle is counted, an error outcome under ON_ERROR = halt halts the machine,
and the frame goes on unless the instruction waits, the machine halts or the budget is used up (R72,
R74, R139; inFrame and out are the model's own fields, notes/assumptions/6.md and 7.md). -/
def Obligations.StepRunsDecodedInstruction : Prop :=
  ∀ (s : State) (i : Instr),
    s.halted = false → s.inFrame = true → s.cycleInFrame < s.cfg.cyclesPerFrame →
    decode [s.memRead s.pc, s.memRead (s.pc + 1)] = .ok (i, []) →
    ∃ t, exec i { s with pc := s.pc + 2 } = .next t ∧
      step s = .next { t with
        cycleInFrame := t.cycleInFrame + 1
        halted := t.halted || (t.out.isError && t.cfg.onError == .halt)
        inFrame := !t.out.isAwait && !(t.out.isError && t.cfg.onError == .halt) &&
          decide (t.cycleInFrame + 1 < t.cfg.cyclesPerFrame) }

/-- The word fetched is the byte at pc, as its high half, and the byte at pc + 1, each address mod
4096; pc advances by 2 mod 2^16. The byte order and the fetch mask are the spec's own choices D1, D2,
D3. -/
def Obligations.FetchReadsTwoBytesBigEndian : Prop :=
  ∀ s : State,
    s.fetchWord.toNat =
      256 * (Memory.read s.cfg.font s.mem (s.pc.toNat % 4096)).toNat +
        (Memory.read s.cfg.font s.mem ((s.pc.toNat + 1) % 4096)).toNat ∧
    s.afterFetch.pc.toNat = (s.pc.toNat + 2) % 65536

/-- R75: an invalid word writes nothing; pc stays at the post-fetch value, and the next fetch reads the
following word. -/
def Obligations.InvalidWordOnlyAdvancesPc : Prop :=
  ∀ s : State, (∀ i, decodeWord s.fetchWord ≠ .ok i) →
    ∃ t, cycle s = .next t ∧ t = { s with pc := s.pc + 2, out := .invalidInstruction } ∧
      t.fetchWord = wordOfBytes (s.memRead (s.pc + 2)) (s.memRead (s.pc + 3))

/-- Every step answers a next state: no fault and no refusal ends a run (fetch never fails, R73; no
access faults, R43; every instruction is total, 93_implementation_defined.md). -/
def Obligations.EveryStepAnswersNext : Prop := ∀ s : State, ∃ t, step s = .next t

/-- What each instruction's outcome is and when it is not Ok (R80, R123), and that an instruction that
ends with another outcome has written nothing but pc: StackOverflow and StackUnderflow leave it, the two
waits take 2 off it. That DRW need not wait in the first cycle of a frame (cycle_in_frame 0) is R136, the
spec's own choice D11 (notes/assumptions/16.md). -/
def Obligations.OutcomesOfInstructions : Prop :=
  ∀ (i : Instr) (s t : State), exec i s = .next t →
    (t.out = .stackOverflow ↔ (∃ nnn, i = .call nnn) ∧ s.sp.val = 16) ∧
    (t.out = .stackUnderflow ↔ i = .ret ∧ s.sp.val = 0) ∧
    (t.out = .awaitKeypress ↔ (∃ x, i = .ldVxK x) ∧ s.frameEdge = none) ∧
    (t.out = .awaitRefresh ↔
      (∃ x y n, i = .drw x y n) ∧ s.cfg.qcfg.getLsbD 4 = true ∧ s.cycleInFrame ≠ 0) ∧
    t.out ≠ .invalidInstruction ∧
    (t.out.isError = true → t = { s with out := t.out }) ∧
    (t.out.isAwait = true → t = { s with pc := s.pc - 2, out := t.out })

/-- R79: an instruction changes only the state its rule writes, for every instruction: pc (R26), general
registers (R23), I (R27), memory (R48), the stack (R29: CALL writes the entry at SP and no other, RET
writes no entry), the timers (R31), the display (R34), the random draws; no instruction changes QCFG, the
key snapshots or the frame latches; and one that ends with another outcome than Ok has changed nothing
but pc. -/
def Obligations.InstructionsWriteOnlyTheirState : Prop :=
  ∀ (i : Instr) (s t : State), exec i s = .next t →
    RegsKept (writesReg s.cfg.qcfg i) s t ∧
    (¬writesI s.cfg.qcfg i → t.i = s.i) ∧
    MemKeptOutside (storedBytes s i) s t ∧
    (¬movesPc i → t.pc = s.pc) ∧
    ((∀ nnn, i ≠ .call nnn) → t.stack = s.stack) ∧
    (∀ k : Fin 16, k.val ≠ s.sp.val → t.stack[k] = s.stack[k]) ∧
    ((∀ nnn, i ≠ .call nnn) → i ≠ .ret → t.sp = s.sp) ∧
    ((∀ x, i ≠ .ldDTVx x) → t.dt = s.dt) ∧
    ((∀ x, i ≠ .ldSTVx x) → t.st = s.st) ∧
    ((∀ x y n, i ≠ .drw x y n) → i ≠ .cls → DisplayKept s t) ∧
    ((∀ x nn, i ≠ .rnd x nn) → DrawsKept s t) ∧
    FrameKept s t ∧
    (t.out ≠ .ok → t = { s with pc := t.pc, out := t.out })

/-! ## Memory -/

/-- R43: an access at any address value touches `mem[a & 0xFFF]`: a read gives what was last written
there, and a write leaves every other byte. -/
def Obligations.MaskedAddressDecidesTheByte : Prop :=
  ∀ (s : State) (a c : Word) (b : Byte),
    s.memRead a = s.memRead (a &&& 0xFFF) ∧
    (s.memWrite a b).memRead c =
      if c.toNat % 4096 = a.toNat % 4096 then b else s.memRead c

/-- Two canonical memories that read the same at every address are the same list, so that equal
memories are equal data. This is about the model's representation (notes/assumptions/5.md). -/
def Obligations.CanonicalMemoriesAreDeterminedByReads : Prop :=
  ∀ (font : FontData) (m m' : Memory), Memory.wf font m → Memory.wf font m' →
    (∀ a, a < memSize → Memory.read font m a = Memory.read font m' a) → m = m'

/-! ## The frame sequencer -/

/-- Between frames a step is a frame start: both timers fall by one, never below zero (R132); the key
snapshots move on (R134); frame_edge becomes the edge of the two snapshots (R135: edgeDetect, whose
meaning FrameStartReportsTheLowestKeyEdge says); the loop of `Frame()` is entered with `cycle_in_frame` 0
(R139); nothing else of the machine changes. One tick a frame, the order of the three and the edge chosen
are the spec's own choices D33, D25, D12. The model's choices: a snapshot the host has not announced is a
free value (notes/assumptions/4.md); inFrame says where the sequencer stands, and where the budget is used
up it stands between frames (6.md); the outcome output stays (7.md); the run has begun (9.md). -/
def Obligations.StepBetweenFramesStartsAFrame : Prop :=
  ∀ s : State, s.halted = false →
    (s.inFrame = false ∨ s.cfg.cyclesPerFrame ≤ s.cycleInFrame) →
    ∃ t, step s = .next t ∧ t = frameStart s ∧
      t.dt.toNat = s.dt.toNat - 1 ∧ t.st.toNat = s.st.toNat - 1 ∧
      t.keysPrev = s.keys ∧
      (∀ k rest, s.keysIn = k :: rest → t.keys = k ∧ t.keysIn = rest) ∧
      (s.keysIn = [] → t.keys = Config.freeKeys s.framesStarted ∧ t.keysIn = []) ∧
      t.frameEdge = edgeDetect (s.cfg.qcfg.getLsbD 5) s.keys t.keys ∧
      t.framesStarted = s.framesStarted + 1 ∧ t.cycleInFrame = 0 ∧ t.inFrame = true ∧
      t.running = true ∧
      t.halted = false ∧ t.cfg = s.cfg ∧ t.pc = s.pc ∧ t.i = s.i ∧ t.out = s.out ∧
      RegsKept (fun _ => False) s t ∧ MemKept s t ∧ StackKept s t ∧ DisplayKept s t ∧
      DrawsKept s t

/-- The edge a frame start reports is the lowest key whose state changed in the configured direction
(QCFG bit 5: release, else press) between the snapshot of the frame before and the new one; none when
no key did. The choice of the lowest is the spec's own, D12. -/
def Obligations.FrameStartReportsTheLowestKeyEdge : Prop :=
  ∀ s t : State, t = frameStart s →
    let edge : Key → Prop := fun k =>
      if s.cfg.qcfg.getLsbD 5 then s.keys[k] = true ∧ t.keys[k] = false
      else s.keys[k] = false ∧ t.keys[k] = true
    (∀ k, t.frameEdge = some k ↔ edge k ∧ ∀ j < k, ¬edge j) ∧
    (t.frameEdge = none ↔ ∀ k, ¬edge k)

/-- After a cycle: an error outcome halts under ON_ERROR = halt and goes on like Ok under the other
policy (R128, D14); a wait ends the frame (R153); otherwise the frame goes on while its budget lasts
(R139). The cycle is counted, and nothing else of its result changes. inFrame is the model's own field
(notes/assumptions/6.md). -/
def Obligations.OutcomeDecidesWhatFollowsACycle : Prop :=
  ∀ s t : State, s.halted = false → s.inFrame = true →
    s.cycleInFrame < s.cfg.cyclesPerFrame → cycle s = .next t →
    ∃ u, step s = .next u ∧ u.cycleInFrame = s.cycleInFrame + 1 ∧
      (t.out.isError = true → s.cfg.onError = .halt → u.halted = true ∧ u.inFrame = false) ∧
      (t.out.isAwait = true → u.halted = false ∧ u.inFrame = false) ∧
      (t.out = .ok ∨ (t.out.isError = true ∧ s.cfg.onError = .goOn) →
        u.halted = false ∧
          (u.inFrame = true ↔ s.cycleInFrame + 1 < s.cfg.cyclesPerFrame)) ∧
      { u with cycleInFrame := t.cycleInFrame, halted := t.halted, inFrame := t.inFrame } = t

/-- A halted machine keeps all its state: no step and no call of `Frame()` changes anything any more
(R139; that a step of a halted machine is the same state is notes/assumptions/26.md). -/
def Obligations.HaltedMachineKeepsItsState : Prop :=
  ∀ s : State, s.halted = true → step s = .next s ∧ frame s = .next s

/-- A call of `Frame()` (R139) is a run of the step function: the frame start and then the cycles of
that frame, at least one and at most CYCLES_PER_FRAME, with the sequencer inside the frame until the
last of them (inFrame is the model's own field, notes/assumptions/6.md). -/
def Obligations.FrameIsTheRunOfItsSteps : Prop :=
  ∀ s : State, s.cfg.legal → s.halted = false → s.inFrame = false →
    ∃ (n : Nat) (t : State), 1 ≤ n ∧ n ≤ s.cfg.cyclesPerFrame ∧ frame s = .next t ∧
      Host.Core.run core (n + 1) s = .next t ∧ t.inFrame = false ∧ t.cycleInFrame = n ∧
      ∀ j, j < n → ∃ u : State, Host.Core.run core (j + 1) s = .next u ∧ u.inFrame = true ∧
        u.halted = false ∧ u.cycleInFrame = j

/-- The state after reset meets the machine's invariant. The parameters it holds are the model's
(notes/assumptions/1.md), and I, the keys and the latches the spec's own choice D17. -/
def Obligations.InvariantHoldsAtReset : Prop := Inv State.reset

/-- Every step keeps the invariant: the memory stays canonical and below 4096, the cycle count stays
within the budget, only an error under ON_ERROR = halt halts, the frame's edge stays the edge of the two
snapshots, and nothing of a run has happened before it has begun. inFrame, out and running are the model's
own fields (notes/assumptions/6.md, 7.md, 9.md). -/
def Obligations.EveryStepKeepsTheInvariant : Prop :=
  ∀ s t : State, Inv s → step s = .next t → Inv t

/-- A machine constructed with any legal parameters, with any image of at most 3584 bytes loaded, meets
the invariant. -/
def Obligations.LoadedMachineMeetsTheInvariant : Prop :=
  ∀ (p : Params) (image : List Byte), p.legal → image.length ≤ 3584 →
    ∃ s t, construct p = .next s ∧ s.load image = .next t ∧ Inv t

/-- No step changes the parameters; QCFG is never runtime-mutated (R11, R36). -/
def Obligations.NoStepChangesTheConfiguration : Prop :=
  ∀ s t : State, step s = .next t → t.cfg = s.cfg

/-! ## Reset and load -/

/-- What construction and the host's `reset()` leave, whatever the machine did before (R40, R146): memory
zero but for FONT_DATA at 0x050..0x09F (glyph d at 0x050 + 5·d), every register, the stack and both
timers zero, pc 0x200, the display dark, the keys released. Construction takes the parameters it is
given, State.reset the default ones (notes/assumptions/1.md and 2.md), and `reset()` keeps those of the
construction (R36). The values of I, the keys and the latches are the spec's own choice D17. That a
`load` may follow is the model's own field running (notes/assumptions/9.md). -/
def Obligations.ResetLeavesTheStatedValues : Prop :=
  State.reset = State.constructed Config.defaults ∧
  (∀ p : Params, (State.constructed p).cfg = p) ∧ (∀ s : State, s.hostReset.cfg = s.cfg) ∧
  ∀ t : State, (∃ p, t = State.constructed p) ∨ (∃ s, t = State.hostReset s) →
    (∀ (d : Fin 16) (k : Fin 5),
      t.memRead (0x050 + 5 * BitVec.ofNat 16 d.val + BitVec.ofNat 16 k.val) = t.cfg.font[d][k]) ∧
    (∀ a : Word, a.toNat % 4096 < 0x050 ∨ 0x0A0 ≤ a.toNat % 4096 → t.memRead a = 0) ∧
    (∀ r, t.getV r = 0) ∧ t.pc = 0x200 ∧ t.i = 0 ∧ t.sp = 0 ∧ (∀ k : Fin 16, t.stack[k] = 0) ∧
    t.dt = 0 ∧ t.st = 0 ∧ (∀ k : Key, t.keys[k] = false) ∧ (∀ k : Key, t.keysPrev[k] = false) ∧
    (∀ y x, t.pixel y x = false) ∧ t.frameEdge = none ∧ t.cycleInFrame = 0 ∧ t.halted = false ∧
    t.running = false

/-- Before the run has begun, `load` copies an image of at most 3584 bytes to 0x200 on, byte by byte, and
changes nothing else (R147; that it changes nothing else is the spec's own choice D34; when a run begins
is notes/assumptions/9.md). -/
def Obligations.LoadCopiesTheImage : Prop :=
  ∀ (s : State) (image : List Byte), s.running = false → image.length ≤ 3584 →
    ∃ t, s.load image = .next t ∧
      (∀ k (h : k < image.length), t.memRead (BitVec.ofNat 16 (0x200 + k)) = image[k]) ∧
      (∀ a : Word, a.toNat % 4096 < 0x200 ∨ 0x200 + image.length ≤ a.toNat % 4096 →
        t.memRead a = s.memRead a) ∧
      t = { s with mem := t.mem }

/-- `load` refuses an image longer than 3584 bytes (R148, the spec's own choice D23). -/
def Obligations.LoadRefusesAnOverlongImage : Prop :=
  ∀ (s : State) (image : List Byte), 3584 < image.length →
    s.load image = .refused (.imageTooLong image.length)

/-- Once the run has begun no image can be loaded: every state of the invariant that a step answers
refuses every `load`, and it keeps doing so along every further step, until the host resets the machine,
after which the image is copied again (R56, R147; that it is a refusal is U15 of
93_implementation_defined.md, and when a run begins is notes/assumptions/9.md). -/
def Obligations.LoadIsRefusedDuringARun : Prop :=
  (∀ (s : State) (image : List Byte), s.running = true →
    (image.length ≤ 3584 → s.load image = .refused .loadDuringRun) ∧
    ∃ r, s.load image = .refused r) ∧
  (∀ s t : State, Inv s ∨ s.running = true → step s = .next t → t.running = true) ∧
  (∀ (s : State) (image : List Byte), image.length ≤ 3584 → ∃ t, s.hostReset.load image = .next t)

/-! ## Control transfer and skips (41_control.md) -/

/-- R81: `RET` pops into pc; the popped entry stays in the stack; on an empty stack StackUnderflow with
nothing written. -/
def Obligations.RetPopsTheReturnAddress : Prop :=
  decodeWord 0x00EE = .ok .ret ∧
  ∀ s : State,
    (∀ h : 0 < s.sp.val, ∃ t, exec .ret s = .next t ∧ t.out = .ok ∧
      t.pc = s.stack[s.sp.val - 1] ∧ t.sp.val = s.sp.val - 1 ∧ t.stack = s.stack ∧
      RegsKept (fun _ => False) s t ∧ t.i = s.i ∧ MemKept s t ∧ TimersKept s t ∧
      DisplayKept s t ∧ FrameKept s t ∧ DrawsKept s t) ∧
    (s.sp.val = 0 → exec .ret s = .next { s with out := .stackUnderflow })

/-- R82: `JP addr` puts the zero-extended address into pc, and changes nothing else. -/
def Obligations.JpPutsTheAddressIntoPc : Prop :=
  ∀ (nnn : Addr) (s : State),
    decodeWord (wordNNN 0x1 nnn) = .ok (.jp nnn) ∧
    ∃ t, exec (.jp nnn) s = .next t ∧ t.out = .ok ∧ t.pc.toNat = nnn.toNat ∧ OnlyPc s t

/-- R83: `CALL addr` pushes the post-fetch pc and jumps; with 16 entries held StackOverflow with nothing
written. -/
def Obligations.CallPushesTheReturnAddress : Prop :=
  ∀ (nnn : Addr) (s : State),
    decodeWord (wordNNN 0x2 nnn) = .ok (.call nnn) ∧
    (∀ h : s.sp.val < 16, ∃ t, exec (.call nnn) s = .next t ∧ t.out = .ok ∧
      t.pc.toNat = nnn.toNat ∧ t.sp.val = s.sp.val + 1 ∧
      (∀ k : Fin 16, t.stack[k] = if k.val = s.sp.val then s.pc else s.stack[k]) ∧
      RegsKept (fun _ => False) s t ∧ t.i = s.i ∧ MemKept s t ∧ TimersKept s t ∧
      DisplayKept s t ∧ FrameKept s t ∧ DrawsKept s t) ∧
    (s.sp.val = 16 → exec (.call nnn) s = .next { s with out := .stackOverflow })

/-- A `RET` after a `CALL` comes back to the address after the call, with the stack pointer and every
entry below it as before (R81, R83). What the called routine changed in between is any state that keeps
the stack and its pointer. -/
def Obligations.RetUndoesCall : Prop :=
  ∀ (nnn : Addr) (s : State), s.sp.val < 16 →
    ∃ t, exec (.call nnn) s = .next t ∧
      ∀ u : State, u.stack = t.stack → u.sp = t.sp →
        ∃ w, exec .ret u = .next w ∧ w.out = .ok ∧ w.pc = s.pc ∧ w.sp = s.sp ∧
          ∀ k : Fin 16, k.val < s.sp.val → w.stack[k] = s.stack[k]

/-- R84, R85: `SE Vx, byte` skips when the register equals the immediate, `SNE Vx, byte` when it does
not; a skip is 2 more, mod 2^16. -/
def Obligations.ImmediateSkipsCompareWithTheByte : Prop :=
  ∀ (x : Reg) (nn : Byte) (s : State),
    decodeWord (wordXNN 0x3 x nn) = .ok (.seByte x nn) ∧
    decodeWord (wordXNN 0x4 x nn) = .ok (.sneByte x nn) ∧
    (∃ t, exec (.seByte x nn) s = .next t ∧ t.out = .ok ∧ OnlyPc s t ∧
      t.pc.toNat = if s.getV x = nn then (s.pc.toNat + 2) % 65536 else s.pc.toNat) ∧
    (∃ t, exec (.sneByte x nn) s = .next t ∧ t.out = .ok ∧ OnlyPc s t ∧
      t.pc.toNat = if s.getV x = nn then s.pc.toNat else (s.pc.toNat + 2) % 65536)

/-- R86, R87: `SE Vx, Vy` skips when the registers are equal, `SNE Vx, Vy` when they differ; the words
of these families with a low nibble other than 0 are invalid. -/
def Obligations.RegisterSkipsCompareTwoRegisters : Prop :=
  ∀ (x y : Reg) (s : State),
    decodeWord (wordXYN 0x5 x y 0) = .ok (.seReg x y) ∧
    decodeWord (wordXYN 0x9 x y 0) = .ok (.sneReg x y) ∧
    (∀ n : Nibble, n ≠ 0 → ∀ i, decodeWord (wordXYN 0x5 x y n) ≠ .ok i ∧
      decodeWord (wordXYN 0x9 x y n) ≠ .ok i) ∧
    (∃ t, exec (.seReg x y) s = .next t ∧ t.out = .ok ∧ OnlyPc s t ∧
      t.pc.toNat = if s.getV x = s.getV y then (s.pc.toNat + 2) % 65536 else s.pc.toNat) ∧
    (∃ t, exec (.sneReg x y) s = .next t ∧ t.out = .ok ∧ OnlyPc s t ∧
      t.pc.toNat = if s.getV x = s.getV y then s.pc.toNat else (s.pc.toNat + 2) % 65536)

/-- `JP V0, addr` jumps to the address plus V0, or plus the register named by the address's high nibble
when QCFG bit 1 is set; the 16-bit target is stored unmasked (R88, where the width of the target is the
spec's own choice D3). -/
def Obligations.JpV0AddsTheOffsetRegister : Prop :=
  ∀ (x : Reg) (nnn : Addr) (s : State), (Instr.jpV0 x nnn).wellFormed = true →
    x.val = nnn.toNat / 256 ∧ decodeWord (wordNNN 0xB nnn) = .ok (.jpV0 x nnn) ∧
    ∃ t, exec (.jpV0 x nnn) s = .next t ∧ t.out = .ok ∧ OnlyPc s t ∧
      t.pc.toNat = nnn.toNat +
        (if s.cfg.qcfg.getLsbD 1 then (s.getV x).toNat else (s.getV 0).toNat)

/-! ## Register-immediate instructions (42_register_immediate.md) -/

/-- R89, R90: `LD Vx, byte` sets the register to the immediate; `ADD Vx, byte` adds it mod 2^8 and
writes no flag. Nothing else changes. -/
def Obligations.ImmediateLoadAndAdd : Prop :=
  ∀ (x : Reg) (nn : Byte) (s : State),
    decodeWord (wordXNN 0x6 x nn) = .ok (.ldByte x nn) ∧
    decodeWord (wordXNN 0x7 x nn) = .ok (.addByte x nn) ∧
    (∃ t, exec (.ldByte x nn) s = .next t ∧ t.out = .ok ∧ t.pc = s.pc ∧ t.getV x = nn ∧
      OnlyRegs (· = x) s t) ∧
    (∃ t, exec (.addByte x nn) s = .next t ∧ t.out = .ok ∧ t.pc = s.pc ∧
      (t.getV x).toNat = ((s.getV x).toNat + nn.toNat) % 256 ∧ OnlyRegs (· = x) s t)

/-- R91: `LD I, addr` sets I to the zero-extended address, and changes nothing else. -/
def Obligations.LdISetsTheIndex : Prop :=
  ∀ (nnn : Addr) (s : State),
    decodeWord (wordNNN 0xA nnn) = .ok (.ldI nnn) ∧
    ∃ t, exec (.ldI nnn) s = .next t ∧ t.out = .ok ∧ t.pc = s.pc ∧ t.i.toNat = nnn.toNat ∧
      RegsKept (fun _ => False) s t ∧ MemKept s t ∧ StackKept s t ∧ TimersKept s t ∧
      DisplayKept s t ∧ FrameKept s t ∧ DrawsKept s t

/-- `RND Vx, byte` takes one draw and leaves it, under the mask, in the register, whatever byte is drawn
(R92; that the draw is a free value is the spec's own choice D15, and how it is supplied is
notes/assumptions/3.md). -/
def Obligations.RndMasksOneDraw : Prop :=
  ∀ (x : Reg) (nn : Byte) (s : State),
    decodeWord (wordXNN 0xC x nn) = .ok (.rnd x nn) ∧
    ∃ t, exec (.rnd x nn) s = .next t ∧ t.out = .ok ∧ t.pc = s.pc ∧
      (∀ b rest, s.randIn = b :: rest → t.getV x = b &&& nn ∧ t.randIn = rest) ∧
      (s.randIn = [] → t.getV x = Config.freeRand s.randDrawn &&& nn ∧ t.randIn = []) ∧
      t.randDrawn = s.randDrawn + 1 ∧ RegsKept (· = x) s t ∧ RestKept s t

/-! ## Arithmetic and logic (43_alu.md) -/

/-- R94: `LD Vx, Vy` copies the register, and changes nothing else. -/
def Obligations.LdRegCopies : Prop :=
  ∀ (x y : Reg) (s : State),
    decodeWord (wordXYN 0x8 x y 0x0) = .ok (.ldReg x y) ∧
    ∃ t, exec (.ldReg x y) s = .next t ∧ t.out = .ok ∧ t.pc = s.pc ∧ t.getV x = s.getV y ∧
      OnlyRegs (· = x) s t

/-- R95, R96, R97: OR, AND and XOR, register by register after them: VF is 0 when QCFG bit 2 is set,
written last; else the destination holds the result. -/
def Obligations.LogicWritesResultThenClearsVf : Prop :=
  ∀ (x y : Reg) (s : State),
    decodeWord (wordXYN 0x8 x y 0x1) = .ok (.orReg x y) ∧
    decodeWord (wordXYN 0x8 x y 0x2) = .ok (.andReg x y) ∧
    decodeWord (wordXYN 0x8 x y 0x3) = .ok (.xorReg x y) ∧
    ∀ (i : Instr) (result : Byte),
      (i = .orReg x y ∧ result = s.getV x ||| s.getV y) ∨
        (i = .andReg x y ∧ result = s.getV x &&& s.getV y) ∨
        (i = .xorReg x y ∧ result = s.getV x ^^^ s.getV y) →
      ∃ t, exec i s = .next t ∧ t.out = .ok ∧ t.pc = s.pc ∧
        (∀ r, t.getV r =
          if s.cfg.qcfg.getLsbD 2 = true ∧ r = VF then 0
          else if r = x then result else s.getV r) ∧
        RestKept s t ∧ DrawsKept s t

/-- R98: `ADD Vx, Vy`, register by register: the sum mod 2^8, and last VF, 1 when the unsigned sum
overflowed 8 bits, else 0. -/
def Obligations.AddWritesSumThenCarry : Prop :=
  ∀ (x y : Reg) (s : State),
    decodeWord (wordXYN 0x8 x y 0x4) = .ok (.addReg x y) ∧
    ∃ t, exec (.addReg x y) s = .next t ∧ t.out = .ok ∧ t.pc = s.pc ∧
      (∀ r, (t.getV r).toNat =
        if r = VF then (if 256 ≤ (s.getV x).toNat + (s.getV y).toNat then 1 else 0)
        else if r = x then ((s.getV x).toNat + (s.getV y).toNat) % 256
        else (s.getV r).toNat) ∧
      RestKept s t ∧ DrawsKept s t

/-- R99, R100: SUB is VX - VY and SUBN is VY - VX, mod 2^8, and last VF, 1 when the minuend is at least
the subtrahend, else 0. -/
def Obligations.SubtractionWritesDifferenceThenNoBorrow : Prop :=
  ∀ (x y : Reg) (s : State),
    decodeWord (wordXYN 0x8 x y 0x5) = .ok (.subReg x y) ∧
    decodeWord (wordXYN 0x8 x y 0x7) = .ok (.subnReg x y) ∧
    ∀ (i : Instr) (a b : Byte),
      (i = .subReg x y ∧ a = s.getV x ∧ b = s.getV y) ∨
        (i = .subnReg x y ∧ a = s.getV y ∧ b = s.getV x) →
      ∃ t, exec i s = .next t ∧ t.out = .ok ∧ t.pc = s.pc ∧
        (∀ r, (t.getV r).toNat =
          if r = VF then (if b.toNat ≤ a.toNat then 1 else 0)
          else if r = x then (256 + a.toNat - b.toNat) % 256
          else (s.getV r).toNat) ∧
        RestKept s t ∧ DrawsKept s t

/-- R101, R102: the shifts take V[x] when QCFG bit 0 is set and else V[y], write half the source or twice
it mod 2^8 to V[x], and last the bit shifted out to VF. -/
def Obligations.ShiftsWriteResultThenBitOut : Prop :=
  ∀ (x y : Reg) (s : State),
    decodeWord (wordXYN 0x8 x y 0x6) = .ok (.shr x y) ∧
    decodeWord (wordXYN 0x8 x y 0xE) = .ok (.shl x y) ∧
    ∀ src : Nat, src = (if s.cfg.qcfg.getLsbD 0 then s.getV x else s.getV y).toNat →
      (∃ t, exec (.shr x y) s = .next t ∧ t.out = .ok ∧ t.pc = s.pc ∧
        (∀ r, (t.getV r).toNat =
          if r = VF then src % 2 else if r = x then src / 2 else (s.getV r).toNat) ∧
        RestKept s t ∧ DrawsKept s t) ∧
      (∃ t, exec (.shl x y) s = .next t ∧ t.out = .ok ∧ t.pc = s.pc ∧
        (∀ r, (t.getV r).toNat =
          if r = VF then src / 128 else if r = x then 2 * src % 256 else (s.getV r).toNat) ∧
        RestKept s t ∧ DrawsKept s t)

/-! ## Display (44_display.md) -/

/-- `CLS` makes every pixel false and writes no register, and it does not wait (R104; that it does not
wait is the spec's own choice D10). -/
def Obligations.ClsClearsEveryPixel : Prop :=
  decodeWord 0x00E0 = .ok .cls ∧
  ∀ s : State, ∃ t, exec .cls s = .next t ∧ t.out = .ok ∧ t.pc = s.pc ∧
    (∀ y x, t.pixel y x = false) ∧ RegsKept (fun _ => False) s t ∧ t.i = s.i ∧ MemKept s t ∧
    StackKept s t ∧ TimersKept s t ∧ FrameKept s t ∧ DrawsKept s t

/-- A DRW that need not wait toggles exactly the pixels of its sprite, wrapped or clipped, and writes VF
last: 1 when one of them was lit, else 0 (R105, R106, R108; the bit order of a sprite row, R107, is the
spec's own choice D8, and height 0 is D9, notes/assumptions/15.md). That it need not wait in the first
cycle of a frame (cycle_in_frame 0) is R136, the spec's own choice D11 (notes/assumptions/16.md). -/
def Obligations.DrwTogglesExactlyTheSprite : Prop :=
  ∀ (x y : Reg) (n : Nibble) (s : State),
    decodeWord (wordXYN 0xD x y n) = .ok (.drw x y n) ∧
    ((s.cfg.qcfg.getLsbD 4 = true → s.cycleInFrame = 0) →
      ∃ t, exec (.drw x y n) s = .next t ∧ t.out = .ok ∧ t.pc = s.pc ∧
        (∀ py px, t.pixel py px = (s.pixel py px ^^ spriteToggles s x y n py px)) ∧
        (t.getV VF = 0 ∨ t.getV VF = 1) ∧
        (t.getV VF = 1 ↔
          ∃ py px, spriteToggles s x y n py px = true ∧ s.pixel py px = true) ∧
        RegsKept (· = VF) s t ∧ t.i = s.i ∧ MemKept s t ∧ StackKept s t ∧ TimersKept s t ∧
        FrameKept s t ∧ DrawsKept s t)

/-- R78 for DRW: with `display_wait` (QCFG bit 4) set and the cycle not the first of its frame, DRW
rewinds pc by 2 mod 2^16, returns AwaitRefresh and writes nothing else (R105; that readiness is the first
cycle of a frame, R136, is the spec's own choice D11, notes/assumptions/16.md). -/
def Obligations.DrwWaitsForTheNextFrame : Prop :=
  ∀ (x y : Reg) (n : Nibble) (s : State), s.cfg.qcfg.getLsbD 4 = true → s.cycleInFrame ≠ 0 →
    ∃ t, exec (.drw x y n) s = .next t ∧ t.pc.toNat = (s.pc.toNat + 65534) % 65536 ∧
      t = { s with pc := t.pc, out := .awaitRefresh }

/-- Drawing the same sprite twice at the same coordinates restores every pixel, and the second draw
collides exactly when the first one lit a pixel (the property the source names for a one-byte sprite on a
blank display, for every sprite and display). VF holds a coordinate in neither draw. That a draw need not
wait in the first cycle of a frame (cycle_in_frame 0) is R136, the spec's own choice D11
(notes/assumptions/16.md). -/
def Obligations.DrawingTwiceRestoresTheDisplay : Prop :=
  ∀ (x y : Reg) (n : Nibble) (s : State), x ≠ VF → y ≠ VF →
    (s.cfg.qcfg.getLsbD 4 = true → s.cycleInFrame = 0) →
    ∃ t u, exec (.drw x y n) s = .next t ∧ exec (.drw x y n) t = .next u ∧
      (∀ py px, u.pixel py px = s.pixel py px) ∧
      (u.getV VF = 1 ↔ ∃ py px, s.pixel py px = false ∧ t.pixel py px = true)

/-! ## Keys (45_keys.md) -/

/-- `SKP Vx` skips when the key named by the low 4 bits of the register is held, `SKNP Vx` when it is
not (R111, R112; the sub-opcodes and the low 4 bits are the spec's own choices D6, D7). -/
def Obligations.KeySkipsTestTheSnapshot : Prop :=
  ∀ (x : Reg) (s : State) (k : Key), k.val = (s.getV x).toNat % 16 →
    decodeWord (wordXNN 0xE x 0x9E) = .ok (.skp x) ∧
    decodeWord (wordXNN 0xE x 0xA1) = .ok (.sknp x) ∧
    (∃ t, exec (.skp x) s = .next t ∧ t.out = .ok ∧ OnlyPc s t ∧
      t.pc.toNat = if s.keys[k] = true then (s.pc.toNat + 2) % 65536 else s.pc.toNat) ∧
    (∃ t, exec (.sknp x) s = .next t ∧ t.out = .ok ∧ OnlyPc s t ∧
      t.pc.toNat = if s.keys[k] = true then s.pc.toNat else (s.pc.toNat + 2) % 65536)

/-- R113: `LD Vx, K` stores the key of the cycle's edge; without an edge it rewinds pc by 2 mod 2^16 and
returns AwaitKeypress, and nothing else changes. -/
def Obligations.LdVxKStoresTheEdgeOrWaits : Prop :=
  ∀ (x : Reg) (s : State),
    decodeWord (wordXNN 0xF x 0x0A) = .ok (.ldVxK x) ∧
    (∀ k : Key, s.frameEdge = some k →
      ∃ t, exec (.ldVxK x) s = .next t ∧ t.out = .ok ∧ t.pc = s.pc ∧
        (t.getV x).toNat = k.val ∧ OnlyRegs (· = x) s t) ∧
    (s.frameEdge = none →
      ∃ t, exec (.ldVxK x) s = .next t ∧ t.pc.toNat = (s.pc.toNat + 65534) % 65536 ∧
        t = { s with pc := t.pc, out := .awaitKeypress })

/-! ## Transfers (46_transfer.md) -/

/-- R114, R115, R116: `LD Vx, DT` reads the delay timer; `LD DT, Vx` and `LD ST, Vx` set a timer. Nothing
else changes. -/
def Obligations.TimerTransfers : Prop :=
  ∀ (x : Reg) (s : State),
    decodeWord (wordXNN 0xF x 0x07) = .ok (.ldVxDT x) ∧
    decodeWord (wordXNN 0xF x 0x15) = .ok (.ldDTVx x) ∧
    decodeWord (wordXNN 0xF x 0x18) = .ok (.ldSTVx x) ∧
    (∃ t, exec (.ldVxDT x) s = .next t ∧ t.out = .ok ∧ t.pc = s.pc ∧ t.getV x = s.dt ∧
      OnlyRegs (· = x) s t) ∧
    (∃ t, exec (.ldDTVx x) s = .next t ∧ t.out = .ok ∧ t.pc = s.pc ∧ t.dt = s.getV x ∧
      t.st = s.st ∧ RegsKept (fun _ => False) s t ∧ t.i = s.i ∧ MemKept s t ∧ StackKept s t ∧
      DisplayKept s t ∧ FrameKept s t ∧ DrawsKept s t) ∧
    (∃ t, exec (.ldSTVx x) s = .next t ∧ t.out = .ok ∧ t.pc = s.pc ∧ t.st = s.getV x ∧
      t.dt = s.dt ∧ RegsKept (fun _ => False) s t ∧ t.i = s.i ∧ MemKept s t ∧ StackKept s t ∧
      DisplayKept s t ∧ FrameKept s t ∧ DrawsKept s t)

/-- R118: `LD F, Vx` points I at the glyph of the register's low 4 bits, and changes nothing else. -/
def Obligations.LdFPointsAtTheGlyph : Prop :=
  ∀ (x : Reg) (s : State),
    decodeWord (wordXNN 0xF x 0x29) = .ok (.ldF x) ∧
    ∃ t, exec (.ldF x) s = .next t ∧ t.out = .ok ∧ t.pc = s.pc ∧
      t.i.toNat = 0x050 + 5 * ((s.getV x).toNat % 16) ∧
      RegsKept (fun _ => False) s t ∧ MemKept s t ∧ StackKept s t ∧ TimersKept s t ∧
      DisplayKept s t ∧ FrameKept s t ∧ DrawsKept s t

/-- `ADD I, Vx` adds the register to I mod 2^16 and writes no flag (R117; the width of the sum is the
spec's own choice D4). -/
def Obligations.AddIAddsWithoutAFlag : Prop :=
  ∀ (x : Reg) (s : State),
    decodeWord (wordXNN 0xF x 0x1E) = .ok (.addI x) ∧
    ∃ t, exec (.addI x) s = .next t ∧ t.out = .ok ∧ t.pc = s.pc ∧
      t.i.toNat = (s.i.toNat + (s.getV x).toNat) % 65536 ∧
      RegsKept (fun _ => False) s t ∧ MemKept s t ∧ StackKept s t ∧ TimersKept s t ∧
      DisplayKept s t ∧ FrameKept s t ∧ DrawsKept s t

/-- R119: `LD B, Vx` stores the three decimal digits of the register, hundreds first, at I, I + 1, I + 2,
each address masked on its own; every other byte, I and the registers are unchanged. -/
def Obligations.LdBStoresTheDecimalDigits : Prop :=
  ∀ (x : Reg) (s : State),
    decodeWord (wordXNN 0xF x 0x33) = .ok (.ldB x) ∧
    ∃ t, exec (.ldB x) s = .next t ∧ t.out = .ok ∧ t.pc = s.pc ∧
      (t.memRead (indexed s 0)).toNat = (s.getV x).toNat / 100 ∧
      (t.memRead (indexed s 1)).toNat = (s.getV x).toNat / 10 % 10 ∧
      (t.memRead (indexed s 2)).toNat = (s.getV x).toNat % 10 ∧
      MemKeptOutside [indexed s 0, indexed s 1, indexed s 2] s t ∧
      RegsKept (fun _ => False) s t ∧ t.i = s.i ∧ StackKept s t ∧ TimersKept s t ∧
      DisplayKept s t ∧ FrameKept s t ∧ DrawsKept s t

/-- `LD [I], Vx` stores V0..Vx at I..I+x, each address masked on its own, and then advances I past the
range mod 2^16 when QCFG bit 6 is set; every other byte and the registers are unchanged (R120; the width
of I's sum is the spec's own choice D4). -/
def Obligations.BulkStoreWritesV0ToVx : Prop :=
  ∀ (x : Reg) (s : State),
    decodeWord (wordXNN 0xF x 0x55) = .ok (.storeRegs x) ∧
    ∃ t, exec (.storeRegs x) s = .next t ∧ t.out = .ok ∧ t.pc = s.pc ∧
      (∀ k : Reg, k ≤ x → t.memRead (indexed s k.val) = s.getV k) ∧
      MemKeptOutside ((List.range (x.val + 1)).map (indexed s)) s t ∧
      t.i.toNat = (if s.cfg.qcfg.getLsbD 6 then (s.i.toNat + x.val + 1) % 65536 else s.i.toNat) ∧
      RegsKept (fun _ => False) s t ∧ StackKept s t ∧ TimersKept s t ∧ DisplayKept s t ∧
      FrameKept s t ∧ DrawsKept s t

/-- `LD Vx, [I]` loads V0..Vx from I..I+x, each address masked on its own, and then advances I like the
store; memory and the other registers are unchanged (R121; the width of I's sum is the spec's own choice
D4). -/
def Obligations.BulkLoadReadsV0ToVx : Prop :=
  ∀ (x : Reg) (s : State),
    decodeWord (wordXNN 0xF x 0x65) = .ok (.loadRegs x) ∧
    ∃ t, exec (.loadRegs x) s = .next t ∧ t.out = .ok ∧ t.pc = s.pc ∧
      (∀ k : Reg, k ≤ x → t.getV k = s.memRead (indexed s k.val)) ∧
      RegsKept (· ≤ x) s t ∧ MemKept s t ∧
      t.i.toNat = (if s.cfg.qcfg.getLsbD 6 then (s.i.toNat + x.val + 1) % 65536 else s.i.toNat) ∧
      StackKept s t ∧ TimersKept s t ∧ DisplayKept s t ∧ FrameKept s t ∧ DrawsKept s t

/-- A bulk load undoes a bulk store: whatever happened to the registers in between, `LD Vx, [I]` with the
old I brings V0..Vx back, for every I, the wrap at 0xFFF included (R49, R120, R121). -/
def Obligations.BulkLoadUndoesBulkStore : Prop :=
  ∀ (x : Reg) (s : State),
    ∃ t, exec (.storeRegs x) s = .next t ∧
      ∀ u : State, u.cfg = t.cfg → u.mem = t.mem → u.i = s.i →
        ∃ w, exec (.loadRegs x) u = .next w ∧ ∀ k : Reg, k ≤ x → w.getV k = s.getV k
end

