-- ==== Sys2Proof/Laws/Decode.lean ====
section
/-!
SUPPORT. The fields of the three word forms (R60), and a word put together again from its fields.
-/

namespace Sys2Proof

/-- The fields of a word as numbers: the digits of R60. -/
theorem fieldsOf_toNat (w : Word) :
    (fieldsOf w).op.toNat = w.toNat / 4096 ∧ (fieldsOf w).x.val = w.toNat / 256 % 16 ∧
      (fieldsOf w).y.val = w.toNat / 16 % 16 ∧ (fieldsOf w).n.toNat = w.toNat % 16 ∧
      (fieldsOf w).nn.toNat = w.toNat % 256 ∧ (fieldsOf w).nnn.toNat = w.toNat % 4096 := by
  have h := w.isLt
  refine ⟨?_, ?_, ?_, ?_, ?_, ?_⟩ <;> simp [fieldsOf, Nat.shiftRight_eq_div_pow]
  omega

theorem wordXYN_toNat (op : BitVec 4) (x y : Reg) (n : Nibble) :
    (wordXYN op x y n).toNat = op.toNat * 4096 + x.val * 256 + y.val * 16 + n.toNat := by
  have hx := x.isLt
  have hy := y.isLt
  have hn := n.isLt
  simp only [wordXYN, BitVec.toNat_append, BitVec.toNat_ofFin]
  rw [← Nat.shiftLeft_add_eq_or_of_lt hn, ← Nat.shiftLeft_add_eq_or_of_lt hy,
    ← Nat.shiftLeft_add_eq_or_of_lt hx]
  simp only [Nat.shiftLeft_eq]
  omega

theorem wordXNN_toNat (op : BitVec 4) (x : Reg) (nn : Byte) :
    (wordXNN op x nn).toNat = op.toNat * 4096 + x.val * 256 + nn.toNat := by
  have hx := x.isLt
  have hn := nn.isLt
  simp only [wordXNN, BitVec.toNat_append, BitVec.toNat_ofFin]
  rw [← Nat.shiftLeft_add_eq_or_of_lt hn, ← Nat.shiftLeft_add_eq_or_of_lt hx]
  simp only [Nat.shiftLeft_eq]
  omega

theorem wordNNN_toNat (op : BitVec 4) (nnn : Addr) :
    (wordNNN op nnn).toNat = op.toNat * 4096 + nnn.toNat := by
  have hn := nnn.isLt
  simp only [wordNNN, BitVec.toNat_append]
  rw [← Nat.shiftLeft_add_eq_or_of_lt hn]
  simp only [Nat.shiftLeft_eq, Nat.reducePow]

/-- The fields of `op x y n`. -/
theorem fieldsOf_wordXYN (op : BitVec 4) (x y : Reg) (n : Nibble) :
    (fieldsOf (wordXYN op x y n)).op = op ∧ (fieldsOf (wordXYN op x y n)).x = x ∧
      (fieldsOf (wordXYN op x y n)).y = y ∧ (fieldsOf (wordXYN op x y n)).n = n := by
  have h := fieldsOf_toNat (wordXYN op x y n)
  rw [wordXYN_toNat] at h
  have hx := x.isLt
  have hy := y.isLt
  have hn := n.isLt
  refine ⟨BitVec.eq_of_toNat_eq ?_, Fin.ext ?_, Fin.ext ?_, BitVec.eq_of_toNat_eq ?_⟩ <;> omega

/-- The fields of `op x nn`. -/
theorem fieldsOf_wordXNN (op : BitVec 4) (x : Reg) (nn : Byte) :
    (fieldsOf (wordXNN op x nn)).op = op ∧ (fieldsOf (wordXNN op x nn)).x = x ∧
      (fieldsOf (wordXNN op x nn)).nn = nn := by
  have h := fieldsOf_toNat (wordXNN op x nn)
  rw [wordXNN_toNat] at h
  have hx := x.isLt
  have hn := nn.isLt
  refine ⟨BitVec.eq_of_toNat_eq ?_, Fin.ext ?_, BitVec.eq_of_toNat_eq ?_⟩ <;> omega

/-- The fields of `op nnn`. -/
theorem fieldsOf_wordNNN (op : BitVec 4) (nnn : Addr) :
    (fieldsOf (wordNNN op nnn)).op = op ∧ (fieldsOf (wordNNN op nnn)).nnn = nnn ∧
      (fieldsOf (wordNNN op nnn)).x = addrReg nnn := by
  have h := fieldsOf_toNat (wordNNN op nnn)
  rw [wordNNN_toNat] at h
  have hn := nnn.isLt
  have ha : (addrReg nnn).val = nnn.toNat / 256 % 16 := by
    simp [addrReg, Nat.shiftRight_eq_div_pow]
  refine ⟨BitVec.eq_of_toNat_eq ?_, BitVec.eq_of_toNat_eq ?_, Fin.ext ?_⟩ <;> omega

/-- A word is its fields `op x y n`. -/
theorem wordXYN_fieldsOf (w : Word) :
    wordXYN (fieldsOf w).op (fieldsOf w).x (fieldsOf w).y (fieldsOf w).n = w := by
  have h := fieldsOf_toNat w
  refine BitVec.eq_of_toNat_eq ?_
  rw [wordXYN_toNat]
  omega

/-- A word is its fields `op x nn`. -/
theorem wordXNN_fieldsOf (w : Word) :
    wordXNN (fieldsOf w).op (fieldsOf w).x (fieldsOf w).nn = w := by
  have h := fieldsOf_toNat w
  refine BitVec.eq_of_toNat_eq ?_
  rw [wordXNN_toNat]
  omega

/-- A word is its fields `op nnn`. -/
theorem wordNNN_fieldsOf (w : Word) : wordNNN (fieldsOf w).op (fieldsOf w).nnn = w := by
  have h := fieldsOf_toNat w
  refine BitVec.eq_of_toNat_eq ?_
  rw [wordNNN_toNat]
  omega

/-- A word is its two bytes, the high one first (R45). -/
theorem wordOfBytes_highByte_lowByte (w : Word) : wordOfBytes (highByte w) (lowByte w) = w := by
  have h := w.isLt
  refine BitVec.eq_of_toNat_eq ?_
  simp only [wordOfBytes, BitVec.toNat_append]
  rw [← Nat.shiftLeft_add_eq_or_of_lt (lowByte w).isLt]
  simp [highByte, lowByte, Nat.shiftRight_eq_div_pow, Nat.shiftLeft_eq]
  omega

end Sys2Proof
end

