-- ==== Sys2Proof/Laws/State.lean ====
section
/-!
SUPPORT. One lemma per field per update of State, true by rfl, so that no later proof unfolds a record
update; and the same for the reads of one register, one byte and one pixel.
-/

namespace Sys2Proof.Machine

variable (s : State)

/-! ## Compound moves of pc and VF in terms of the plain updates -/

@[simp] theorem State.skip_eq : s.skip = s.setPc (s.pc + 2) := rfl
@[simp] theorem State.rewind_eq : s.rewind = s.setPc (s.pc - 2) := rfl
@[simp] theorem State.afterFetch_eq : s.afterFetch = s.setPc (s.pc + 2) := rfl
@[simp] theorem State.setFlag_eq (f : Byte) : s.setFlag f = s.setV VF f := rfl
@[simp] theorem State.keyEdge_eq : s.keyEdge = s.frameEdge := rfl

/-! ## setV -/

@[simp] theorem State.setV_mem (x : Reg) (b : Byte) : (s.setV x b).mem = s.mem := rfl
@[simp] theorem State.setV_v (x : Reg) (b : Byte) : (s.setV x b).v = s.v.set x b := rfl
@[simp] theorem State.setV_pc (x : Reg) (b : Byte) : (s.setV x b).pc = s.pc := rfl
@[simp] theorem State.setV_i (x : Reg) (b : Byte) : (s.setV x b).i = s.i := rfl
@[simp] theorem State.setV_stack (x : Reg) (b : Byte) : (s.setV x b).stack = s.stack := rfl
@[simp] theorem State.setV_sp (x : Reg) (b : Byte) : (s.setV x b).sp = s.sp := rfl
@[simp] theorem State.setV_dt (x : Reg) (b : Byte) : (s.setV x b).dt = s.dt := rfl
@[simp] theorem State.setV_st (x : Reg) (b : Byte) : (s.setV x b).st = s.st := rfl
@[simp] theorem State.setV_keys (x : Reg) (b : Byte) : (s.setV x b).keys = s.keys := rfl
@[simp] theorem State.setV_display (x : Reg) (b : Byte) : (s.setV x b).display = s.display := rfl
@[simp] theorem State.setV_keysPrev (x : Reg) (b : Byte) : (s.setV x b).keysPrev = s.keysPrev := rfl
@[simp] theorem State.setV_frameEdge (x : Reg) (b : Byte) :
    (s.setV x b).frameEdge = s.frameEdge := rfl
@[simp] theorem State.setV_cycleInFrame (x : Reg) (b : Byte) :
    (s.setV x b).cycleInFrame = s.cycleInFrame := rfl
@[simp] theorem State.setV_halted (x : Reg) (b : Byte) : (s.setV x b).halted = s.halted := rfl
@[simp] theorem State.setV_inFrame (x : Reg) (b : Byte) : (s.setV x b).inFrame = s.inFrame := rfl
@[simp] theorem State.setV_running (x : Reg) (b : Byte) : (s.setV x b).running = s.running := rfl
@[simp] theorem State.setV_out (x : Reg) (b : Byte) : (s.setV x b).out = s.out := rfl
@[simp] theorem State.setV_cfg (x : Reg) (b : Byte) : (s.setV x b).cfg = s.cfg := rfl
@[simp] theorem State.setV_keysIn (x : Reg) (b : Byte) : (s.setV x b).keysIn = s.keysIn := rfl
@[simp] theorem State.setV_framesStarted (x : Reg) (b : Byte) :
    (s.setV x b).framesStarted = s.framesStarted := rfl
@[simp] theorem State.setV_randIn (x : Reg) (b : Byte) : (s.setV x b).randIn = s.randIn := rfl
@[simp] theorem State.setV_randDrawn (x : Reg) (b : Byte) :
    (s.setV x b).randDrawn = s.randDrawn := rfl
@[simp] theorem State.setV_memRead (x : Reg) (b : Byte) (a' : Word) :
    (s.setV x b).memRead a' = s.memRead a' := rfl
@[simp] theorem State.setV_pixel (x : Reg) (b : Byte) (py : Fin 32) (px : Fin 64) :
    (s.setV x b).pixel py px = s.pixel py px := rfl
@[simp] theorem State.setV_nextKeys (x : Reg) (b : Byte) : (s.setV x b).nextKeys = s.nextKeys := rfl
@[simp] theorem State.setV_nextRand (x : Reg) (b : Byte) : (s.setV x b).nextRand = s.nextRand := rfl
@[simp] theorem State.setV_refreshReady (x : Reg) (b : Byte) : (s.setV x b).refreshReady = s.refreshReady := rfl

/-! ## setPc -/

@[simp] theorem State.setPc_mem (w : Word) : (s.setPc w).mem = s.mem := rfl
@[simp] theorem State.setPc_v (w : Word) : (s.setPc w).v = s.v := rfl
@[simp] theorem State.setPc_pc (w : Word) : (s.setPc w).pc = w := rfl
@[simp] theorem State.setPc_i (w : Word) : (s.setPc w).i = s.i := rfl
@[simp] theorem State.setPc_stack (w : Word) : (s.setPc w).stack = s.stack := rfl
@[simp] theorem State.setPc_sp (w : Word) : (s.setPc w).sp = s.sp := rfl
@[simp] theorem State.setPc_dt (w : Word) : (s.setPc w).dt = s.dt := rfl
@[simp] theorem State.setPc_st (w : Word) : (s.setPc w).st = s.st := rfl
@[simp] theorem State.setPc_keys (w : Word) : (s.setPc w).keys = s.keys := rfl
@[simp] theorem State.setPc_display (w : Word) : (s.setPc w).display = s.display := rfl
@[simp] theorem State.setPc_keysPrev (w : Word) : (s.setPc w).keysPrev = s.keysPrev := rfl
@[simp] theorem State.setPc_frameEdge (w : Word) : (s.setPc w).frameEdge = s.frameEdge := rfl
@[simp] theorem State.setPc_cycleInFrame (w : Word) :
    (s.setPc w).cycleInFrame = s.cycleInFrame := rfl
@[simp] theorem State.setPc_halted (w : Word) : (s.setPc w).halted = s.halted := rfl
@[simp] theorem State.setPc_inFrame (w : Word) : (s.setPc w).inFrame = s.inFrame := rfl
@[simp] theorem State.setPc_running (w : Word) : (s.setPc w).running = s.running := rfl
@[simp] theorem State.setPc_out (w : Word) : (s.setPc w).out = s.out := rfl
@[simp] theorem State.setPc_cfg (w : Word) : (s.setPc w).cfg = s.cfg := rfl
@[simp] theorem State.setPc_keysIn (w : Word) : (s.setPc w).keysIn = s.keysIn := rfl
@[simp] theorem State.setPc_framesStarted (w : Word) :
    (s.setPc w).framesStarted = s.framesStarted := rfl
@[simp] theorem State.setPc_randIn (w : Word) : (s.setPc w).randIn = s.randIn := rfl
@[simp] theorem State.setPc_randDrawn (w : Word) : (s.setPc w).randDrawn = s.randDrawn := rfl
@[simp] theorem State.setPc_getV (w : Word) (r : Reg) : (s.setPc w).getV r = s.getV r := rfl
@[simp] theorem State.setPc_memRead (w : Word) (a' : Word) :
    (s.setPc w).memRead a' = s.memRead a' := rfl
@[simp] theorem State.setPc_pixel (w : Word) (py : Fin 32) (px : Fin 64) :
    (s.setPc w).pixel py px = s.pixel py px := rfl
@[simp] theorem State.setPc_nextKeys (w : Word) : (s.setPc w).nextKeys = s.nextKeys := rfl
@[simp] theorem State.setPc_nextRand (w : Word) : (s.setPc w).nextRand = s.nextRand := rfl
@[simp] theorem State.setPc_refreshReady (w : Word) : (s.setPc w).refreshReady = s.refreshReady := rfl

/-! ## setI -/

@[simp] theorem State.setI_mem (w : Word) : (s.setI w).mem = s.mem := rfl
@[simp] theorem State.setI_v (w : Word) : (s.setI w).v = s.v := rfl
@[simp] theorem State.setI_pc (w : Word) : (s.setI w).pc = s.pc := rfl
@[simp] theorem State.setI_i (w : Word) : (s.setI w).i = w := rfl
@[simp] theorem State.setI_stack (w : Word) : (s.setI w).stack = s.stack := rfl
@[simp] theorem State.setI_sp (w : Word) : (s.setI w).sp = s.sp := rfl
@[simp] theorem State.setI_dt (w : Word) : (s.setI w).dt = s.dt := rfl
@[simp] theorem State.setI_st (w : Word) : (s.setI w).st = s.st := rfl
@[simp] theorem State.setI_keys (w : Word) : (s.setI w).keys = s.keys := rfl
@[simp] theorem State.setI_display (w : Word) : (s.setI w).display = s.display := rfl
@[simp] theorem State.setI_keysPrev (w : Word) : (s.setI w).keysPrev = s.keysPrev := rfl
@[simp] theorem State.setI_frameEdge (w : Word) : (s.setI w).frameEdge = s.frameEdge := rfl
@[simp] theorem State.setI_cycleInFrame (w : Word) : (s.setI w).cycleInFrame = s.cycleInFrame := rfl
@[simp] theorem State.setI_halted (w : Word) : (s.setI w).halted = s.halted := rfl
@[simp] theorem State.setI_inFrame (w : Word) : (s.setI w).inFrame = s.inFrame := rfl
@[simp] theorem State.setI_running (w : Word) : (s.setI w).running = s.running := rfl
@[simp] theorem State.setI_out (w : Word) : (s.setI w).out = s.out := rfl
@[simp] theorem State.setI_cfg (w : Word) : (s.setI w).cfg = s.cfg := rfl
@[simp] theorem State.setI_keysIn (w : Word) : (s.setI w).keysIn = s.keysIn := rfl
@[simp] theorem State.setI_framesStarted (w : Word) :
    (s.setI w).framesStarted = s.framesStarted := rfl
@[simp] theorem State.setI_randIn (w : Word) : (s.setI w).randIn = s.randIn := rfl
@[simp] theorem State.setI_randDrawn (w : Word) : (s.setI w).randDrawn = s.randDrawn := rfl
@[simp] theorem State.setI_getV (w : Word) (r : Reg) : (s.setI w).getV r = s.getV r := rfl
@[simp] theorem State.setI_memRead (w : Word) (a' : Word) :
    (s.setI w).memRead a' = s.memRead a' := rfl
@[simp] theorem State.setI_pixel (w : Word) (py : Fin 32) (px : Fin 64) :
    (s.setI w).pixel py px = s.pixel py px := rfl
@[simp] theorem State.setI_nextKeys (w : Word) : (s.setI w).nextKeys = s.nextKeys := rfl
@[simp] theorem State.setI_nextRand (w : Word) : (s.setI w).nextRand = s.nextRand := rfl
@[simp] theorem State.setI_refreshReady (w : Word) : (s.setI w).refreshReady = s.refreshReady := rfl

/-! ## setDT -/

@[simp] theorem State.setDT_mem (b : Byte) : (s.setDT b).mem = s.mem := rfl
@[simp] theorem State.setDT_v (b : Byte) : (s.setDT b).v = s.v := rfl
@[simp] theorem State.setDT_pc (b : Byte) : (s.setDT b).pc = s.pc := rfl
@[simp] theorem State.setDT_i (b : Byte) : (s.setDT b).i = s.i := rfl
@[simp] theorem State.setDT_stack (b : Byte) : (s.setDT b).stack = s.stack := rfl
@[simp] theorem State.setDT_sp (b : Byte) : (s.setDT b).sp = s.sp := rfl
@[simp] theorem State.setDT_dt (b : Byte) : (s.setDT b).dt = b := rfl
@[simp] theorem State.setDT_st (b : Byte) : (s.setDT b).st = s.st := rfl
@[simp] theorem State.setDT_keys (b : Byte) : (s.setDT b).keys = s.keys := rfl
@[simp] theorem State.setDT_display (b : Byte) : (s.setDT b).display = s.display := rfl
@[simp] theorem State.setDT_keysPrev (b : Byte) : (s.setDT b).keysPrev = s.keysPrev := rfl
@[simp] theorem State.setDT_frameEdge (b : Byte) : (s.setDT b).frameEdge = s.frameEdge := rfl
@[simp] theorem State.setDT_cycleInFrame (b : Byte) :
    (s.setDT b).cycleInFrame = s.cycleInFrame := rfl
@[simp] theorem State.setDT_halted (b : Byte) : (s.setDT b).halted = s.halted := rfl
@[simp] theorem State.setDT_inFrame (b : Byte) : (s.setDT b).inFrame = s.inFrame := rfl
@[simp] theorem State.setDT_running (b : Byte) : (s.setDT b).running = s.running := rfl
@[simp] theorem State.setDT_out (b : Byte) : (s.setDT b).out = s.out := rfl
@[simp] theorem State.setDT_cfg (b : Byte) : (s.setDT b).cfg = s.cfg := rfl
@[simp] theorem State.setDT_keysIn (b : Byte) : (s.setDT b).keysIn = s.keysIn := rfl
@[simp] theorem State.setDT_framesStarted (b : Byte) :
    (s.setDT b).framesStarted = s.framesStarted := rfl
@[simp] theorem State.setDT_randIn (b : Byte) : (s.setDT b).randIn = s.randIn := rfl
@[simp] theorem State.setDT_randDrawn (b : Byte) : (s.setDT b).randDrawn = s.randDrawn := rfl
@[simp] theorem State.setDT_getV (b : Byte) (r : Reg) : (s.setDT b).getV r = s.getV r := rfl
@[simp] theorem State.setDT_memRead (b : Byte) (a' : Word) :
    (s.setDT b).memRead a' = s.memRead a' := rfl
@[simp] theorem State.setDT_pixel (b : Byte) (py : Fin 32) (px : Fin 64) :
    (s.setDT b).pixel py px = s.pixel py px := rfl
@[simp] theorem State.setDT_nextKeys (b : Byte) : (s.setDT b).nextKeys = s.nextKeys := rfl
@[simp] theorem State.setDT_nextRand (b : Byte) : (s.setDT b).nextRand = s.nextRand := rfl
@[simp] theorem State.setDT_refreshReady (b : Byte) : (s.setDT b).refreshReady = s.refreshReady := rfl

/-! ## setST -/

@[simp] theorem State.setST_mem (b : Byte) : (s.setST b).mem = s.mem := rfl
@[simp] theorem State.setST_v (b : Byte) : (s.setST b).v = s.v := rfl
@[simp] theorem State.setST_pc (b : Byte) : (s.setST b).pc = s.pc := rfl
@[simp] theorem State.setST_i (b : Byte) : (s.setST b).i = s.i := rfl
@[simp] theorem State.setST_stack (b : Byte) : (s.setST b).stack = s.stack := rfl
@[simp] theorem State.setST_sp (b : Byte) : (s.setST b).sp = s.sp := rfl
@[simp] theorem State.setST_dt (b : Byte) : (s.setST b).dt = s.dt := rfl
@[simp] theorem State.setST_st (b : Byte) : (s.setST b).st = b := rfl
@[simp] theorem State.setST_keys (b : Byte) : (s.setST b).keys = s.keys := rfl
@[simp] theorem State.setST_display (b : Byte) : (s.setST b).display = s.display := rfl
@[simp] theorem State.setST_keysPrev (b : Byte) : (s.setST b).keysPrev = s.keysPrev := rfl
@[simp] theorem State.setST_frameEdge (b : Byte) : (s.setST b).frameEdge = s.frameEdge := rfl
@[simp] theorem State.setST_cycleInFrame (b : Byte) :
    (s.setST b).cycleInFrame = s.cycleInFrame := rfl
@[simp] theorem State.setST_halted (b : Byte) : (s.setST b).halted = s.halted := rfl
@[simp] theorem State.setST_inFrame (b : Byte) : (s.setST b).inFrame = s.inFrame := rfl
@[simp] theorem State.setST_running (b : Byte) : (s.setST b).running = s.running := rfl
@[simp] theorem State.setST_out (b : Byte) : (s.setST b).out = s.out := rfl
@[simp] theorem State.setST_cfg (b : Byte) : (s.setST b).cfg = s.cfg := rfl
@[simp] theorem State.setST_keysIn (b : Byte) : (s.setST b).keysIn = s.keysIn := rfl
@[simp] theorem State.setST_framesStarted (b : Byte) :
    (s.setST b).framesStarted = s.framesStarted := rfl
@[simp] theorem State.setST_randIn (b : Byte) : (s.setST b).randIn = s.randIn := rfl
@[simp] theorem State.setST_randDrawn (b : Byte) : (s.setST b).randDrawn = s.randDrawn := rfl
@[simp] theorem State.setST_getV (b : Byte) (r : Reg) : (s.setST b).getV r = s.getV r := rfl
@[simp] theorem State.setST_memRead (b : Byte) (a' : Word) :
    (s.setST b).memRead a' = s.memRead a' := rfl
@[simp] theorem State.setST_pixel (b : Byte) (py : Fin 32) (px : Fin 64) :
    (s.setST b).pixel py px = s.pixel py px := rfl
@[simp] theorem State.setST_nextKeys (b : Byte) : (s.setST b).nextKeys = s.nextKeys := rfl
@[simp] theorem State.setST_nextRand (b : Byte) : (s.setST b).nextRand = s.nextRand := rfl
@[simp] theorem State.setST_refreshReady (b : Byte) : (s.setST b).refreshReady = s.refreshReady := rfl

/-! ## setDisplay -/

@[simp] theorem State.setDisplay_mem (d : Display) : (s.setDisplay d).mem = s.mem := rfl
@[simp] theorem State.setDisplay_v (d : Display) : (s.setDisplay d).v = s.v := rfl
@[simp] theorem State.setDisplay_pc (d : Display) : (s.setDisplay d).pc = s.pc := rfl
@[simp] theorem State.setDisplay_i (d : Display) : (s.setDisplay d).i = s.i := rfl
@[simp] theorem State.setDisplay_stack (d : Display) : (s.setDisplay d).stack = s.stack := rfl
@[simp] theorem State.setDisplay_sp (d : Display) : (s.setDisplay d).sp = s.sp := rfl
@[simp] theorem State.setDisplay_dt (d : Display) : (s.setDisplay d).dt = s.dt := rfl
@[simp] theorem State.setDisplay_st (d : Display) : (s.setDisplay d).st = s.st := rfl
@[simp] theorem State.setDisplay_keys (d : Display) : (s.setDisplay d).keys = s.keys := rfl
@[simp] theorem State.setDisplay_display (d : Display) : (s.setDisplay d).display = d := rfl
@[simp] theorem State.setDisplay_keysPrev (d : Display) :
    (s.setDisplay d).keysPrev = s.keysPrev := rfl
@[simp] theorem State.setDisplay_frameEdge (d : Display) :
    (s.setDisplay d).frameEdge = s.frameEdge := rfl
@[simp] theorem State.setDisplay_cycleInFrame (d : Display) :
    (s.setDisplay d).cycleInFrame = s.cycleInFrame := rfl
@[simp] theorem State.setDisplay_halted (d : Display) : (s.setDisplay d).halted = s.halted := rfl
@[simp] theorem State.setDisplay_inFrame (d : Display) : (s.setDisplay d).inFrame = s.inFrame := rfl
@[simp] theorem State.setDisplay_running (d : Display) : (s.setDisplay d).running = s.running := rfl
@[simp] theorem State.setDisplay_out (d : Display) : (s.setDisplay d).out = s.out := rfl
@[simp] theorem State.setDisplay_cfg (d : Display) : (s.setDisplay d).cfg = s.cfg := rfl
@[simp] theorem State.setDisplay_keysIn (d : Display) : (s.setDisplay d).keysIn = s.keysIn := rfl
@[simp] theorem State.setDisplay_framesStarted (d : Display) :
    (s.setDisplay d).framesStarted = s.framesStarted := rfl
@[simp] theorem State.setDisplay_randIn (d : Display) : (s.setDisplay d).randIn = s.randIn := rfl
@[simp] theorem State.setDisplay_randDrawn (d : Display) :
    (s.setDisplay d).randDrawn = s.randDrawn := rfl
@[simp] theorem State.setDisplay_getV (d : Display) (r : Reg) : (s.setDisplay d).getV r = s.getV r := rfl
@[simp] theorem State.setDisplay_memRead (d : Display) (a' : Word) :
    (s.setDisplay d).memRead a' = s.memRead a' := rfl
@[simp] theorem State.setDisplay_pixel (d : Display) (py : Fin 32) (px : Fin 64) :
    (s.setDisplay d).pixel py px = d[py][px] := rfl
@[simp] theorem State.setDisplay_nextKeys (d : Display) : (s.setDisplay d).nextKeys = s.nextKeys := rfl
@[simp] theorem State.setDisplay_nextRand (d : Display) : (s.setDisplay d).nextRand = s.nextRand := rfl
@[simp] theorem State.setDisplay_refreshReady (d : Display) : (s.setDisplay d).refreshReady = s.refreshReady := rfl

/-! ## setStack -/

@[simp] theorem State.setStack_mem (e : Vector Word 16) (k : Fin 17) :
    (s.setStack e k).mem = s.mem := rfl
@[simp] theorem State.setStack_v (e : Vector Word 16) (k : Fin 17) : (s.setStack e k).v = s.v := rfl
@[simp] theorem State.setStack_pc (e : Vector Word 16) (k : Fin 17) :
    (s.setStack e k).pc = s.pc := rfl
@[simp] theorem State.setStack_i (e : Vector Word 16) (k : Fin 17) : (s.setStack e k).i = s.i := rfl
@[simp] theorem State.setStack_stack (e : Vector Word 16) (k : Fin 17) :
    (s.setStack e k).stack = e := rfl
@[simp] theorem State.setStack_sp (e : Vector Word 16) (k : Fin 17) : (s.setStack e k).sp = k := rfl
@[simp] theorem State.setStack_dt (e : Vector Word 16) (k : Fin 17) :
    (s.setStack e k).dt = s.dt := rfl
@[simp] theorem State.setStack_st (e : Vector Word 16) (k : Fin 17) :
    (s.setStack e k).st = s.st := rfl
@[simp] theorem State.setStack_keys (e : Vector Word 16) (k : Fin 17) :
    (s.setStack e k).keys = s.keys := rfl
@[simp] theorem State.setStack_display (e : Vector Word 16) (k : Fin 17) :
    (s.setStack e k).display = s.display := rfl
@[simp] theorem State.setStack_keysPrev (e : Vector Word 16) (k : Fin 17) :
    (s.setStack e k).keysPrev = s.keysPrev := rfl
@[simp] theorem State.setStack_frameEdge (e : Vector Word 16) (k : Fin 17) :
    (s.setStack e k).frameEdge = s.frameEdge := rfl
@[simp] theorem State.setStack_cycleInFrame (e : Vector Word 16) (k : Fin 17) :
    (s.setStack e k).cycleInFrame = s.cycleInFrame := rfl
@[simp] theorem State.setStack_halted (e : Vector Word 16) (k : Fin 17) :
    (s.setStack e k).halted = s.halted := rfl
@[simp] theorem State.setStack_inFrame (e : Vector Word 16) (k : Fin 17) :
    (s.setStack e k).inFrame = s.inFrame := rfl
@[simp] theorem State.setStack_running (e : Vector Word 16) (k : Fin 17) :
    (s.setStack e k).running = s.running := rfl
@[simp] theorem State.setStack_out (e : Vector Word 16) (k : Fin 17) :
    (s.setStack e k).out = s.out := rfl
@[simp] theorem State.setStack_cfg (e : Vector Word 16) (k : Fin 17) :
    (s.setStack e k).cfg = s.cfg := rfl
@[simp] theorem State.setStack_keysIn (e : Vector Word 16) (k : Fin 17) :
    (s.setStack e k).keysIn = s.keysIn := rfl
@[simp] theorem State.setStack_framesStarted (e : Vector Word 16) (k : Fin 17) :
    (s.setStack e k).framesStarted = s.framesStarted := rfl
@[simp] theorem State.setStack_randIn (e : Vector Word 16) (k : Fin 17) :
    (s.setStack e k).randIn = s.randIn := rfl
@[simp] theorem State.setStack_randDrawn (e : Vector Word 16) (k : Fin 17) :
    (s.setStack e k).randDrawn = s.randDrawn := rfl
@[simp] theorem State.setStack_getV (e : Vector Word 16) (k : Fin 17) (r : Reg) : (s.setStack e k).getV r = s.getV r := rfl
@[simp] theorem State.setStack_memRead (e : Vector Word 16) (k : Fin 17) (a' : Word) :
    (s.setStack e k).memRead a' = s.memRead a' := rfl
@[simp] theorem State.setStack_pixel (e : Vector Word 16) (k : Fin 17) (py : Fin 32) (px : Fin 64) :
    (s.setStack e k).pixel py px = s.pixel py px := rfl
@[simp] theorem State.setStack_nextKeys (e : Vector Word 16) (k : Fin 17) : (s.setStack e k).nextKeys = s.nextKeys := rfl
@[simp] theorem State.setStack_nextRand (e : Vector Word 16) (k : Fin 17) : (s.setStack e k).nextRand = s.nextRand := rfl
@[simp] theorem State.setStack_refreshReady (e : Vector Word 16) (k : Fin 17) : (s.setStack e k).refreshReady = s.refreshReady := rfl

/-! ## memWrite -/

@[simp] theorem State.memWrite_mem (a : Word) (b : Byte) :
    (s.memWrite a b).mem = Memory.write s.cfg.font s.mem (memIndex a) b := rfl
@[simp] theorem State.memWrite_v (a : Word) (b : Byte) : (s.memWrite a b).v = s.v := rfl
@[simp] theorem State.memWrite_pc (a : Word) (b : Byte) : (s.memWrite a b).pc = s.pc := rfl
@[simp] theorem State.memWrite_i (a : Word) (b : Byte) : (s.memWrite a b).i = s.i := rfl
@[simp] theorem State.memWrite_stack (a : Word) (b : Byte) : (s.memWrite a b).stack = s.stack := rfl
@[simp] theorem State.memWrite_sp (a : Word) (b : Byte) : (s.memWrite a b).sp = s.sp := rfl
@[simp] theorem State.memWrite_dt (a : Word) (b : Byte) : (s.memWrite a b).dt = s.dt := rfl
@[simp] theorem State.memWrite_st (a : Word) (b : Byte) : (s.memWrite a b).st = s.st := rfl
@[simp] theorem State.memWrite_keys (a : Word) (b : Byte) : (s.memWrite a b).keys = s.keys := rfl
@[simp] theorem State.memWrite_display (a : Word) (b : Byte) :
    (s.memWrite a b).display = s.display := rfl
@[simp] theorem State.memWrite_keysPrev (a : Word) (b : Byte) :
    (s.memWrite a b).keysPrev = s.keysPrev := rfl
@[simp] theorem State.memWrite_frameEdge (a : Word) (b : Byte) :
    (s.memWrite a b).frameEdge = s.frameEdge := rfl
@[simp] theorem State.memWrite_cycleInFrame (a : Word) (b : Byte) :
    (s.memWrite a b).cycleInFrame = s.cycleInFrame := rfl
@[simp] theorem State.memWrite_halted (a : Word) (b : Byte) :
    (s.memWrite a b).halted = s.halted := rfl
@[simp] theorem State.memWrite_inFrame (a : Word) (b : Byte) :
    (s.memWrite a b).inFrame = s.inFrame := rfl
@[simp] theorem State.memWrite_running (a : Word) (b : Byte) :
    (s.memWrite a b).running = s.running := rfl
@[simp] theorem State.memWrite_out (a : Word) (b : Byte) : (s.memWrite a b).out = s.out := rfl
@[simp] theorem State.memWrite_cfg (a : Word) (b : Byte) : (s.memWrite a b).cfg = s.cfg := rfl
@[simp] theorem State.memWrite_keysIn (a : Word) (b : Byte) :
    (s.memWrite a b).keysIn = s.keysIn := rfl
@[simp] theorem State.memWrite_framesStarted (a : Word) (b : Byte) :
    (s.memWrite a b).framesStarted = s.framesStarted := rfl
@[simp] theorem State.memWrite_randIn (a : Word) (b : Byte) :
    (s.memWrite a b).randIn = s.randIn := rfl
@[simp] theorem State.memWrite_randDrawn (a : Word) (b : Byte) :
    (s.memWrite a b).randDrawn = s.randDrawn := rfl
@[simp] theorem State.memWrite_getV (a : Word) (b : Byte) (r : Reg) : (s.memWrite a b).getV r = s.getV r := rfl
@[simp] theorem State.memWrite_pixel (a : Word) (b : Byte) (py : Fin 32) (px : Fin 64) :
    (s.memWrite a b).pixel py px = s.pixel py px := rfl
@[simp] theorem State.memWrite_nextKeys (a : Word) (b : Byte) : (s.memWrite a b).nextKeys = s.nextKeys := rfl
@[simp] theorem State.memWrite_nextRand (a : Word) (b : Byte) : (s.memWrite a b).nextRand = s.nextRand := rfl
@[simp] theorem State.memWrite_refreshReady (a : Word) (b : Byte) : (s.memWrite a b).refreshReady = s.refreshReady := rfl

/-! ## raise -/

@[simp] theorem State.raise_mem (o : CycleOutcome) : (s.raise o).mem = s.mem := rfl
@[simp] theorem State.raise_v (o : CycleOutcome) : (s.raise o).v = s.v := rfl
@[simp] theorem State.raise_pc (o : CycleOutcome) : (s.raise o).pc = s.pc := rfl
@[simp] theorem State.raise_i (o : CycleOutcome) : (s.raise o).i = s.i := rfl
@[simp] theorem State.raise_stack (o : CycleOutcome) : (s.raise o).stack = s.stack := rfl
@[simp] theorem State.raise_sp (o : CycleOutcome) : (s.raise o).sp = s.sp := rfl
@[simp] theorem State.raise_dt (o : CycleOutcome) : (s.raise o).dt = s.dt := rfl
@[simp] theorem State.raise_st (o : CycleOutcome) : (s.raise o).st = s.st := rfl
@[simp] theorem State.raise_keys (o : CycleOutcome) : (s.raise o).keys = s.keys := rfl
@[simp] theorem State.raise_display (o : CycleOutcome) : (s.raise o).display = s.display := rfl
@[simp] theorem State.raise_keysPrev (o : CycleOutcome) : (s.raise o).keysPrev = s.keysPrev := rfl
@[simp] theorem State.raise_frameEdge (o : CycleOutcome) :
    (s.raise o).frameEdge = s.frameEdge := rfl
@[simp] theorem State.raise_cycleInFrame (o : CycleOutcome) :
    (s.raise o).cycleInFrame = s.cycleInFrame := rfl
@[simp] theorem State.raise_halted (o : CycleOutcome) : (s.raise o).halted = s.halted := rfl
@[simp] theorem State.raise_inFrame (o : CycleOutcome) : (s.raise o).inFrame = s.inFrame := rfl
@[simp] theorem State.raise_running (o : CycleOutcome) : (s.raise o).running = s.running := rfl
@[simp] theorem State.raise_out (o : CycleOutcome) : (s.raise o).out = o := rfl
@[simp] theorem State.raise_cfg (o : CycleOutcome) : (s.raise o).cfg = s.cfg := rfl
@[simp] theorem State.raise_keysIn (o : CycleOutcome) : (s.raise o).keysIn = s.keysIn := rfl
@[simp] theorem State.raise_framesStarted (o : CycleOutcome) :
    (s.raise o).framesStarted = s.framesStarted := rfl
@[simp] theorem State.raise_randIn (o : CycleOutcome) : (s.raise o).randIn = s.randIn := rfl
@[simp] theorem State.raise_randDrawn (o : CycleOutcome) :
    (s.raise o).randDrawn = s.randDrawn := rfl
@[simp] theorem State.raise_getV (o : CycleOutcome) (r : Reg) : (s.raise o).getV r = s.getV r := rfl
@[simp] theorem State.raise_memRead (o : CycleOutcome) (a' : Word) :
    (s.raise o).memRead a' = s.memRead a' := rfl
@[simp] theorem State.raise_pixel (o : CycleOutcome) (py : Fin 32) (px : Fin 64) :
    (s.raise o).pixel py px = s.pixel py px := rfl
@[simp] theorem State.raise_nextKeys (o : CycleOutcome) : (s.raise o).nextKeys = s.nextKeys := rfl
@[simp] theorem State.raise_nextRand (o : CycleOutcome) : (s.raise o).nextRand = s.nextRand := rfl
@[simp] theorem State.raise_refreshReady (o : CycleOutcome) : (s.raise o).refreshReady = s.refreshReady := rfl

/-! ## takeRand -/

@[simp] theorem State.takeRand_mem : s.takeRand.mem = s.mem := rfl
@[simp] theorem State.takeRand_v : s.takeRand.v = s.v := rfl
@[simp] theorem State.takeRand_pc : s.takeRand.pc = s.pc := rfl
@[simp] theorem State.takeRand_i : s.takeRand.i = s.i := rfl
@[simp] theorem State.takeRand_stack : s.takeRand.stack = s.stack := rfl
@[simp] theorem State.takeRand_sp : s.takeRand.sp = s.sp := rfl
@[simp] theorem State.takeRand_dt : s.takeRand.dt = s.dt := rfl
@[simp] theorem State.takeRand_st : s.takeRand.st = s.st := rfl
@[simp] theorem State.takeRand_keys : s.takeRand.keys = s.keys := rfl
@[simp] theorem State.takeRand_display : s.takeRand.display = s.display := rfl
@[simp] theorem State.takeRand_keysPrev : s.takeRand.keysPrev = s.keysPrev := rfl
@[simp] theorem State.takeRand_frameEdge : s.takeRand.frameEdge = s.frameEdge := rfl
@[simp] theorem State.takeRand_cycleInFrame : s.takeRand.cycleInFrame = s.cycleInFrame := rfl
@[simp] theorem State.takeRand_halted : s.takeRand.halted = s.halted := rfl
@[simp] theorem State.takeRand_inFrame : s.takeRand.inFrame = s.inFrame := rfl
@[simp] theorem State.takeRand_running : s.takeRand.running = s.running := rfl
@[simp] theorem State.takeRand_out : s.takeRand.out = s.out := rfl
@[simp] theorem State.takeRand_cfg : s.takeRand.cfg = s.cfg := rfl
@[simp] theorem State.takeRand_keysIn : s.takeRand.keysIn = s.keysIn := rfl
@[simp] theorem State.takeRand_framesStarted : s.takeRand.framesStarted = s.framesStarted := rfl
@[simp] theorem State.takeRand_randIn : s.takeRand.randIn = s.randIn.tail := rfl
@[simp] theorem State.takeRand_randDrawn : s.takeRand.randDrawn = s.randDrawn + 1 := rfl
@[simp] theorem State.takeRand_getV (r : Reg) : s.takeRand.getV r = s.getV r := rfl
@[simp] theorem State.takeRand_memRead (a' : Word) :
    s.takeRand.memRead a' = s.memRead a' := rfl
@[simp] theorem State.takeRand_pixel (py : Fin 32) (px : Fin 64) :
    s.takeRand.pixel py px = s.pixel py px := rfl
@[simp] theorem State.takeRand_nextKeys : s.takeRand.nextKeys = s.nextKeys := rfl
@[simp] theorem State.takeRand_refreshReady : s.takeRand.refreshReady = s.refreshReady := rfl

/-! ## latchKeys -/

@[simp] theorem State.latchKeys_mem : s.latchKeys.mem = s.mem := rfl
@[simp] theorem State.latchKeys_v : s.latchKeys.v = s.v := rfl
@[simp] theorem State.latchKeys_pc : s.latchKeys.pc = s.pc := rfl
@[simp] theorem State.latchKeys_i : s.latchKeys.i = s.i := rfl
@[simp] theorem State.latchKeys_stack : s.latchKeys.stack = s.stack := rfl
@[simp] theorem State.latchKeys_sp : s.latchKeys.sp = s.sp := rfl
@[simp] theorem State.latchKeys_dt : s.latchKeys.dt = s.dt := rfl
@[simp] theorem State.latchKeys_st : s.latchKeys.st = s.st := rfl
@[simp] theorem State.latchKeys_keys : s.latchKeys.keys = s.nextKeys := rfl
@[simp] theorem State.latchKeys_display : s.latchKeys.display = s.display := rfl
@[simp] theorem State.latchKeys_keysPrev : s.latchKeys.keysPrev = s.keys := rfl
@[simp] theorem State.latchKeys_frameEdge : s.latchKeys.frameEdge = s.frameEdge := rfl
@[simp] theorem State.latchKeys_cycleInFrame : s.latchKeys.cycleInFrame = s.cycleInFrame := rfl
@[simp] theorem State.latchKeys_halted : s.latchKeys.halted = s.halted := rfl
@[simp] theorem State.latchKeys_inFrame : s.latchKeys.inFrame = s.inFrame := rfl
@[simp] theorem State.latchKeys_running : s.latchKeys.running = s.running := rfl
@[simp] theorem State.latchKeys_out : s.latchKeys.out = s.out := rfl
@[simp] theorem State.latchKeys_cfg : s.latchKeys.cfg = s.cfg := rfl
@[simp] theorem State.latchKeys_keysIn : s.latchKeys.keysIn = s.keysIn.tail := rfl
@[simp] theorem State.latchKeys_framesStarted :
    s.latchKeys.framesStarted = s.framesStarted + 1 := rfl
@[simp] theorem State.latchKeys_randIn : s.latchKeys.randIn = s.randIn := rfl
@[simp] theorem State.latchKeys_randDrawn : s.latchKeys.randDrawn = s.randDrawn := rfl
@[simp] theorem State.latchKeys_getV (r : Reg) : s.latchKeys.getV r = s.getV r := rfl
@[simp] theorem State.latchKeys_memRead (a' : Word) :
    s.latchKeys.memRead a' = s.memRead a' := rfl
@[simp] theorem State.latchKeys_pixel (py : Fin 32) (px : Fin 64) :
    s.latchKeys.pixel py px = s.pixel py px := rfl
@[simp] theorem State.latchKeys_nextRand : s.latchKeys.nextRand = s.nextRand := rfl
@[simp] theorem State.latchKeys_refreshReady : s.latchKeys.refreshReady = s.refreshReady := rfl

/-! ## computeEdge -/

@[simp] theorem State.computeEdge_mem : s.computeEdge.mem = s.mem := rfl
@[simp] theorem State.computeEdge_v : s.computeEdge.v = s.v := rfl
@[simp] theorem State.computeEdge_pc : s.computeEdge.pc = s.pc := rfl
@[simp] theorem State.computeEdge_i : s.computeEdge.i = s.i := rfl
@[simp] theorem State.computeEdge_stack : s.computeEdge.stack = s.stack := rfl
@[simp] theorem State.computeEdge_sp : s.computeEdge.sp = s.sp := rfl
@[simp] theorem State.computeEdge_dt : s.computeEdge.dt = s.dt := rfl
@[simp] theorem State.computeEdge_st : s.computeEdge.st = s.st := rfl
@[simp] theorem State.computeEdge_keys : s.computeEdge.keys = s.keys := rfl
@[simp] theorem State.computeEdge_display : s.computeEdge.display = s.display := rfl
@[simp] theorem State.computeEdge_keysPrev : s.computeEdge.keysPrev = s.keysPrev := rfl
@[simp] theorem State.computeEdge_frameEdge :
    s.computeEdge.frameEdge = edgeDetect (keyWaitOnRelease s.cfg.qcfg) s.keysPrev s.keys := rfl
@[simp] theorem State.computeEdge_cycleInFrame : s.computeEdge.cycleInFrame = s.cycleInFrame := rfl
@[simp] theorem State.computeEdge_halted : s.computeEdge.halted = s.halted := rfl
@[simp] theorem State.computeEdge_inFrame : s.computeEdge.inFrame = s.inFrame := rfl
@[simp] theorem State.computeEdge_running : s.computeEdge.running = s.running := rfl
@[simp] theorem State.computeEdge_out : s.computeEdge.out = s.out := rfl
@[simp] theorem State.computeEdge_cfg : s.computeEdge.cfg = s.cfg := rfl
@[simp] theorem State.computeEdge_keysIn : s.computeEdge.keysIn = s.keysIn := rfl
@[simp] theorem State.computeEdge_framesStarted :
    s.computeEdge.framesStarted = s.framesStarted := rfl
@[simp] theorem State.computeEdge_randIn : s.computeEdge.randIn = s.randIn := rfl
@[simp] theorem State.computeEdge_randDrawn : s.computeEdge.randDrawn = s.randDrawn := rfl
@[simp] theorem State.computeEdge_getV (r : Reg) : s.computeEdge.getV r = s.getV r := rfl
@[simp] theorem State.computeEdge_memRead (a' : Word) :
    s.computeEdge.memRead a' = s.memRead a' := rfl
@[simp] theorem State.computeEdge_pixel (py : Fin 32) (px : Fin 64) :
    s.computeEdge.pixel py px = s.pixel py px := rfl
@[simp] theorem State.computeEdge_nextKeys : s.computeEdge.nextKeys = s.nextKeys := rfl
@[simp] theorem State.computeEdge_nextRand : s.computeEdge.nextRand = s.nextRand := rfl
@[simp] theorem State.computeEdge_refreshReady : s.computeEdge.refreshReady = s.refreshReady := rfl

/-! ## enterFrame -/

@[simp] theorem State.enterFrame_mem : s.enterFrame.mem = s.mem := rfl
@[simp] theorem State.enterFrame_v : s.enterFrame.v = s.v := rfl
@[simp] theorem State.enterFrame_pc : s.enterFrame.pc = s.pc := rfl
@[simp] theorem State.enterFrame_i : s.enterFrame.i = s.i := rfl
@[simp] theorem State.enterFrame_stack : s.enterFrame.stack = s.stack := rfl
@[simp] theorem State.enterFrame_sp : s.enterFrame.sp = s.sp := rfl
@[simp] theorem State.enterFrame_dt : s.enterFrame.dt = s.dt := rfl
@[simp] theorem State.enterFrame_st : s.enterFrame.st = s.st := rfl
@[simp] theorem State.enterFrame_keys : s.enterFrame.keys = s.keys := rfl
@[simp] theorem State.enterFrame_display : s.enterFrame.display = s.display := rfl
@[simp] theorem State.enterFrame_keysPrev : s.enterFrame.keysPrev = s.keysPrev := rfl
@[simp] theorem State.enterFrame_frameEdge : s.enterFrame.frameEdge = s.frameEdge := rfl
@[simp] theorem State.enterFrame_cycleInFrame : s.enterFrame.cycleInFrame = 0 := rfl
@[simp] theorem State.enterFrame_halted : s.enterFrame.halted = s.halted := rfl
@[simp] theorem State.enterFrame_inFrame : s.enterFrame.inFrame = true := rfl
@[simp] theorem State.enterFrame_running : s.enterFrame.running = true := rfl
@[simp] theorem State.enterFrame_out : s.enterFrame.out = s.out := rfl
@[simp] theorem State.enterFrame_cfg : s.enterFrame.cfg = s.cfg := rfl
@[simp] theorem State.enterFrame_keysIn : s.enterFrame.keysIn = s.keysIn := rfl
@[simp] theorem State.enterFrame_framesStarted : s.enterFrame.framesStarted = s.framesStarted := rfl
@[simp] theorem State.enterFrame_randIn : s.enterFrame.randIn = s.randIn := rfl
@[simp] theorem State.enterFrame_randDrawn : s.enterFrame.randDrawn = s.randDrawn := rfl
@[simp] theorem State.enterFrame_getV (r : Reg) : s.enterFrame.getV r = s.getV r := rfl
@[simp] theorem State.enterFrame_memRead (a' : Word) :
    s.enterFrame.memRead a' = s.memRead a' := rfl
@[simp] theorem State.enterFrame_pixel (py : Fin 32) (px : Fin 64) :
    s.enterFrame.pixel py px = s.pixel py px := rfl
@[simp] theorem State.enterFrame_nextKeys : s.enterFrame.nextKeys = s.nextKeys := rfl
@[simp] theorem State.enterFrame_nextRand : s.enterFrame.nextRand = s.nextRand := rfl

/-! ## tickTimers -/

@[simp] theorem State.tickTimers_mem : s.tickTimers.mem = s.mem := rfl
@[simp] theorem State.tickTimers_v : s.tickTimers.v = s.v := rfl
@[simp] theorem State.tickTimers_pc : s.tickTimers.pc = s.pc := rfl
@[simp] theorem State.tickTimers_i : s.tickTimers.i = s.i := rfl
@[simp] theorem State.tickTimers_stack : s.tickTimers.stack = s.stack := rfl
@[simp] theorem State.tickTimers_sp : s.tickTimers.sp = s.sp := rfl
@[simp] theorem State.tickTimers_dt : s.tickTimers.dt = countDown s.dt := rfl
@[simp] theorem State.tickTimers_st : s.tickTimers.st = countDown s.st := rfl
@[simp] theorem State.tickTimers_keys : s.tickTimers.keys = s.keys := rfl
@[simp] theorem State.tickTimers_display : s.tickTimers.display = s.display := rfl
@[simp] theorem State.tickTimers_keysPrev : s.tickTimers.keysPrev = s.keysPrev := rfl
@[simp] theorem State.tickTimers_frameEdge : s.tickTimers.frameEdge = s.frameEdge := rfl
@[simp] theorem State.tickTimers_cycleInFrame : s.tickTimers.cycleInFrame = s.cycleInFrame := rfl
@[simp] theorem State.tickTimers_halted : s.tickTimers.halted = s.halted := rfl
@[simp] theorem State.tickTimers_inFrame : s.tickTimers.inFrame = s.inFrame := rfl
@[simp] theorem State.tickTimers_running : s.tickTimers.running = s.running := rfl
@[simp] theorem State.tickTimers_out : s.tickTimers.out = s.out := rfl
@[simp] theorem State.tickTimers_cfg : s.tickTimers.cfg = s.cfg := rfl
@[simp] theorem State.tickTimers_keysIn : s.tickTimers.keysIn = s.keysIn := rfl
@[simp] theorem State.tickTimers_framesStarted : s.tickTimers.framesStarted = s.framesStarted := rfl
@[simp] theorem State.tickTimers_randIn : s.tickTimers.randIn = s.randIn := rfl
@[simp] theorem State.tickTimers_randDrawn : s.tickTimers.randDrawn = s.randDrawn := rfl
@[simp] theorem State.tickTimers_getV (r : Reg) : s.tickTimers.getV r = s.getV r := rfl
@[simp] theorem State.tickTimers_memRead (a' : Word) :
    s.tickTimers.memRead a' = s.memRead a' := rfl
@[simp] theorem State.tickTimers_pixel (py : Fin 32) (px : Fin 64) :
    s.tickTimers.pixel py px = s.pixel py px := rfl
@[simp] theorem State.tickTimers_nextKeys : s.tickTimers.nextKeys = s.nextKeys := rfl
@[simp] theorem State.tickTimers_nextRand : s.tickTimers.nextRand = s.nextRand := rfl
@[simp] theorem State.tickTimers_refreshReady : s.tickTimers.refreshReady = s.refreshReady := rfl

/-! ## skipIf -/

@[simp] theorem State.skipIf_pc (c : Bool) :
    (s.skipIf c).pc = if c then s.pc + 2 else s.pc := by cases c <;> rfl
@[simp] theorem State.skipIf_mem (c : Bool) : (s.skipIf c).mem = s.mem := by cases c <;> rfl
@[simp] theorem State.skipIf_v (c : Bool) : (s.skipIf c).v = s.v := by cases c <;> rfl
@[simp] theorem State.skipIf_i (c : Bool) : (s.skipIf c).i = s.i := by cases c <;> rfl
@[simp] theorem State.skipIf_stack (c : Bool) : (s.skipIf c).stack = s.stack := by cases c <;> rfl
@[simp] theorem State.skipIf_sp (c : Bool) : (s.skipIf c).sp = s.sp := by cases c <;> rfl
@[simp] theorem State.skipIf_dt (c : Bool) : (s.skipIf c).dt = s.dt := by cases c <;> rfl
@[simp] theorem State.skipIf_st (c : Bool) : (s.skipIf c).st = s.st := by cases c <;> rfl
@[simp] theorem State.skipIf_keys (c : Bool) : (s.skipIf c).keys = s.keys := by cases c <;> rfl
@[simp] theorem State.skipIf_display (c : Bool) : (s.skipIf c).display = s.display := by cases c <;> rfl
@[simp] theorem State.skipIf_keysPrev (c : Bool) : (s.skipIf c).keysPrev = s.keysPrev := by cases c <;> rfl
@[simp] theorem State.skipIf_frameEdge (c : Bool) : (s.skipIf c).frameEdge = s.frameEdge := by cases c <;> rfl
@[simp] theorem State.skipIf_cycleInFrame (c : Bool) : (s.skipIf c).cycleInFrame = s.cycleInFrame := by cases c <;> rfl
@[simp] theorem State.skipIf_halted (c : Bool) : (s.skipIf c).halted = s.halted := by cases c <;> rfl
@[simp] theorem State.skipIf_inFrame (c : Bool) : (s.skipIf c).inFrame = s.inFrame := by cases c <;> rfl
@[simp] theorem State.skipIf_running (c : Bool) : (s.skipIf c).running = s.running := by cases c <;> rfl
@[simp] theorem State.skipIf_out (c : Bool) : (s.skipIf c).out = s.out := by cases c <;> rfl
@[simp] theorem State.skipIf_cfg (c : Bool) : (s.skipIf c).cfg = s.cfg := by cases c <;> rfl
@[simp] theorem State.skipIf_keysIn (c : Bool) : (s.skipIf c).keysIn = s.keysIn := by cases c <;> rfl
@[simp] theorem State.skipIf_framesStarted (c : Bool) : (s.skipIf c).framesStarted = s.framesStarted := by cases c <;> rfl
@[simp] theorem State.skipIf_randIn (c : Bool) : (s.skipIf c).randIn = s.randIn := by cases c <;> rfl
@[simp] theorem State.skipIf_randDrawn (c : Bool) : (s.skipIf c).randDrawn = s.randDrawn := by cases c <;> rfl
@[simp] theorem State.skipIf_getV (c : Bool) (r : Reg) : (s.skipIf c).getV r = s.getV r := by
  cases c <;> rfl
@[simp] theorem State.skipIf_memRead (c : Bool) (a : Word) :
    (s.skipIf c).memRead a = s.memRead a := by cases c <;> rfl
@[simp] theorem State.skipIf_pixel (c : Bool) (py : Fin 32) (px : Fin 64) :
    (s.skipIf c).pixel py px = s.pixel py px := by cases c <;> rfl

/-! ## clearFlagAfterLogic -/

@[simp] theorem State.clearFlagAfterLogic_mem : s.clearFlagAfterLogic.mem = s.mem := by
  unfold State.clearFlagAfterLogic; split <;> rfl
@[simp] theorem State.clearFlagAfterLogic_pc : s.clearFlagAfterLogic.pc = s.pc := by
  unfold State.clearFlagAfterLogic; split <;> rfl
@[simp] theorem State.clearFlagAfterLogic_i : s.clearFlagAfterLogic.i = s.i := by
  unfold State.clearFlagAfterLogic; split <;> rfl
@[simp] theorem State.clearFlagAfterLogic_stack : s.clearFlagAfterLogic.stack = s.stack := by
  unfold State.clearFlagAfterLogic; split <;> rfl
@[simp] theorem State.clearFlagAfterLogic_sp : s.clearFlagAfterLogic.sp = s.sp := by
  unfold State.clearFlagAfterLogic; split <;> rfl
@[simp] theorem State.clearFlagAfterLogic_dt : s.clearFlagAfterLogic.dt = s.dt := by
  unfold State.clearFlagAfterLogic; split <;> rfl
@[simp] theorem State.clearFlagAfterLogic_st : s.clearFlagAfterLogic.st = s.st := by
  unfold State.clearFlagAfterLogic; split <;> rfl
@[simp] theorem State.clearFlagAfterLogic_keys : s.clearFlagAfterLogic.keys = s.keys := by
  unfold State.clearFlagAfterLogic; split <;> rfl
@[simp] theorem State.clearFlagAfterLogic_display : s.clearFlagAfterLogic.display = s.display := by
  unfold State.clearFlagAfterLogic; split <;> rfl
@[simp] theorem State.clearFlagAfterLogic_keysPrev : s.clearFlagAfterLogic.keysPrev = s.keysPrev := by
  unfold State.clearFlagAfterLogic; split <;> rfl
@[simp] theorem State.clearFlagAfterLogic_frameEdge : s.clearFlagAfterLogic.frameEdge = s.frameEdge := by
  unfold State.clearFlagAfterLogic; split <;> rfl
@[simp] theorem State.clearFlagAfterLogic_cycleInFrame : s.clearFlagAfterLogic.cycleInFrame = s.cycleInFrame := by
  unfold State.clearFlagAfterLogic; split <;> rfl
@[simp] theorem State.clearFlagAfterLogic_halted : s.clearFlagAfterLogic.halted = s.halted := by
  unfold State.clearFlagAfterLogic; split <;> rfl
@[simp] theorem State.clearFlagAfterLogic_inFrame : s.clearFlagAfterLogic.inFrame = s.inFrame := by
  unfold State.clearFlagAfterLogic; split <;> rfl
@[simp] theorem State.clearFlagAfterLogic_running : s.clearFlagAfterLogic.running = s.running := by
  unfold State.clearFlagAfterLogic; split <;> rfl
@[simp] theorem State.clearFlagAfterLogic_out : s.clearFlagAfterLogic.out = s.out := by
  unfold State.clearFlagAfterLogic; split <;> rfl
@[simp] theorem State.clearFlagAfterLogic_cfg : s.clearFlagAfterLogic.cfg = s.cfg := by
  unfold State.clearFlagAfterLogic; split <;> rfl
@[simp] theorem State.clearFlagAfterLogic_keysIn : s.clearFlagAfterLogic.keysIn = s.keysIn := by
  unfold State.clearFlagAfterLogic; split <;> rfl
@[simp] theorem State.clearFlagAfterLogic_framesStarted : s.clearFlagAfterLogic.framesStarted = s.framesStarted := by
  unfold State.clearFlagAfterLogic; split <;> rfl
@[simp] theorem State.clearFlagAfterLogic_randIn : s.clearFlagAfterLogic.randIn = s.randIn := by
  unfold State.clearFlagAfterLogic; split <;> rfl
@[simp] theorem State.clearFlagAfterLogic_randDrawn : s.clearFlagAfterLogic.randDrawn = s.randDrawn := by
  unfold State.clearFlagAfterLogic; split <;> rfl
@[simp] theorem State.clearFlagAfterLogic_memRead (a : Word) :
    s.clearFlagAfterLogic.memRead a = s.memRead a := by
  unfold State.clearFlagAfterLogic; split <;> rfl
@[simp] theorem State.clearFlagAfterLogic_pixel (py : Fin 32) (px : Fin 64) :
    s.clearFlagAfterLogic.pixel py px = s.pixel py px := by
  unfold State.clearFlagAfterLogic; split <;> rfl

/-! ## One register -/

/-- The register file after one write, register by register. -/
@[simp] theorem State.getV_setV (x r : Reg) (b : Byte) :
    (s.setV x b).getV r = if r = x then b else s.getV r := by
  simp only [State.getV, State.setV, Fin.getElem_fin, Vector.getElem_set, Fin.ext_iff]
  by_cases h : x.val = r.val <;> simp [h, eq_comm]

/-- The register file after the flag rule of OR, AND and XOR. -/
@[simp] theorem State.getV_clearFlagAfterLogic (r : Reg) :
    s.clearFlagAfterLogic.getV r =
      if logicOpsClearVf s.cfg.qcfg = true ∧ r = VF then 0 else s.getV r := by
  unfold State.clearFlagAfterLogic
  by_cases h : logicOpsClearVf s.cfg.qcfg = true <;> simp [h]

/-- Two register files that agree register by register are equal. -/
theorem State.v_ext (t : State) (h : ∀ r, t.getV r = s.getV r) : t.v = s.v := by
  refine Vector.ext fun k hk => ?_
  exact h ⟨k, hk⟩

/-! ## Frame start and end of a cycle -/

@[simp] theorem frameStart_mem :
    (frameStart s).mem = s.mem := by simp [frameStart]
@[simp] theorem frameStart_v :
    (frameStart s).v = s.v := by simp [frameStart]
@[simp] theorem frameStart_pc :
    (frameStart s).pc = s.pc := by simp [frameStart]
@[simp] theorem frameStart_i :
    (frameStart s).i = s.i := by simp [frameStart]
@[simp] theorem frameStart_stack :
    (frameStart s).stack = s.stack := by simp [frameStart]
@[simp] theorem frameStart_sp :
    (frameStart s).sp = s.sp := by simp [frameStart]
@[simp] theorem frameStart_dt :
    (frameStart s).dt = countDown s.dt := by simp [frameStart]
@[simp] theorem frameStart_st :
    (frameStart s).st = countDown s.st := by simp [frameStart]
@[simp] theorem frameStart_keys :
    (frameStart s).keys = s.nextKeys := by simp [frameStart]
@[simp] theorem frameStart_display :
    (frameStart s).display = s.display := by simp [frameStart]
@[simp] theorem frameStart_keysPrev :
    (frameStart s).keysPrev = s.keys := by simp [frameStart]
@[simp] theorem frameStart_frameEdge :
    (frameStart s).frameEdge = edgeDetect (keyWaitOnRelease s.cfg.qcfg) s.keys s.nextKeys := by simp [frameStart]
@[simp] theorem frameStart_cycleInFrame :
    (frameStart s).cycleInFrame = 0 := by simp [frameStart]
@[simp] theorem frameStart_halted :
    (frameStart s).halted = s.halted := by simp [frameStart]
@[simp] theorem frameStart_inFrame :
    (frameStart s).inFrame = true := by simp [frameStart]
@[simp] theorem frameStart_running :
    (frameStart s).running = true := by simp [frameStart]
@[simp] theorem frameStart_out :
    (frameStart s).out = s.out := by simp [frameStart]
@[simp] theorem frameStart_cfg :
    (frameStart s).cfg = s.cfg := by simp [frameStart]
@[simp] theorem frameStart_keysIn :
    (frameStart s).keysIn = s.keysIn.tail := by simp [frameStart]
@[simp] theorem frameStart_framesStarted :
    (frameStart s).framesStarted = s.framesStarted + 1 := by simp [frameStart]
@[simp] theorem frameStart_randIn :
    (frameStart s).randIn = s.randIn := by simp [frameStart]
@[simp] theorem frameStart_randDrawn :
    (frameStart s).randDrawn = s.randDrawn := by simp [frameStart]
@[simp] theorem endCycle_mem : (endCycle s).mem = s.mem := rfl
@[simp] theorem endCycle_v : (endCycle s).v = s.v := rfl
@[simp] theorem endCycle_pc : (endCycle s).pc = s.pc := rfl
@[simp] theorem endCycle_i : (endCycle s).i = s.i := rfl
@[simp] theorem endCycle_stack : (endCycle s).stack = s.stack := rfl
@[simp] theorem endCycle_sp : (endCycle s).sp = s.sp := rfl
@[simp] theorem endCycle_dt : (endCycle s).dt = s.dt := rfl
@[simp] theorem endCycle_st : (endCycle s).st = s.st := rfl
@[simp] theorem endCycle_keys : (endCycle s).keys = s.keys := rfl
@[simp] theorem endCycle_display : (endCycle s).display = s.display := rfl
@[simp] theorem endCycle_keysPrev : (endCycle s).keysPrev = s.keysPrev := rfl
@[simp] theorem endCycle_frameEdge : (endCycle s).frameEdge = s.frameEdge := rfl
@[simp] theorem endCycle_cycleInFrame : (endCycle s).cycleInFrame = s.cycleInFrame + 1 := rfl
@[simp] theorem endCycle_halted : (endCycle s).halted = (s.halted || stopsMachine s) := rfl
@[simp] theorem endCycle_inFrame :
    (endCycle s).inFrame =
      (!s.out.isAwait && !stopsMachine s && decide (s.cycleInFrame + 1 < s.cfg.cyclesPerFrame)) := rfl
@[simp] theorem endCycle_running : (endCycle s).running = s.running := rfl
@[simp] theorem endCycle_out : (endCycle s).out = s.out := rfl
@[simp] theorem endCycle_cfg : (endCycle s).cfg = s.cfg := rfl
@[simp] theorem endCycle_keysIn : (endCycle s).keysIn = s.keysIn := rfl
@[simp] theorem endCycle_framesStarted : (endCycle s).framesStarted = s.framesStarted := rfl
@[simp] theorem endCycle_randIn : (endCycle s).randIn = s.randIn := rfl
@[simp] theorem endCycle_randDrawn : (endCycle s).randDrawn = s.randDrawn := rfl
@[simp] theorem frameStart_getV (r : Reg) : (frameStart s).getV r = s.getV r := by simp [frameStart]
@[simp] theorem frameStart_memRead (a : Word) : (frameStart s).memRead a = s.memRead a := by simp [frameStart]
@[simp] theorem frameStart_pixel (py : Fin 32) (px : Fin 64) :
    (frameStart s).pixel py px = s.pixel py px := by simp [frameStart]
@[simp] theorem endCycle_getV (r : Reg) : (endCycle s).getV r = s.getV r := rfl
@[simp] theorem endCycle_memRead (a : Word) : (endCycle s).memRead a = s.memRead a := rfl
@[simp] theorem endCycle_pixel (py : Fin 32) (px : Fin 64) :
    (endCycle s).pixel py px = s.pixel py px := rfl

end Sys2Proof.Machine
end

