-- ==== Sys2Proof/Laws/Memory.lean ====
section
/-!
SUPPORT. The laws of memory: a read after a write, the canonical form kept by every memory operation,
and equality of canonical memories that read the same.
-/

namespace Sys2Proof.Machine

/-! ## The list operations -/

theorem Memory.find_erase (m : Memory) (a b : Nat) :
    Memory.find (Memory.erase m a) b = if b = a then none else Memory.find m b := by
  induction m with
  | nil => simp [Memory.erase, Memory.find]
  | cons c m ih =>
    obtain ⟨k, v⟩ := c
    by_cases hk : k = a
    · have : Memory.erase ((k, v) :: m) a = Memory.erase m a := by simp [Memory.erase, hk]
      rw [this, ih]
      by_cases hb : b = a
      · simp [hb]
      · have : ¬k = b := fun h => hb (h ▸ hk)
        simp [hb, Memory.find, this]
    · have : Memory.erase ((k, v) :: m) a = (k, v) :: Memory.erase m a := by
        simp [Memory.erase, hk]
      rw [this, Memory.find, ih, Memory.find]
      by_cases hb : k = b
      · have : ¬b = a := fun h => hk (hb.trans h)
        simp [hb, this]
      · simp [hb]

theorem Memory.find_insert (m : Memory) (a b : Nat) (v : Byte) :
    Memory.find (Memory.insert m a v) b = if b = a then some v else Memory.find m b := by
  induction m with
  | nil => by_cases h : a = b <;> simp [Memory.insert, Memory.find, h, eq_comm]
  | cons c m ih =>
    obtain ⟨k, w⟩ := c
    rw [Memory.insert]
    split
    · simp only [Memory.find, eq_comm]
    · split
      · rename_i h2
        subst h2
        simp only [Memory.find, eq_comm]
        split <;> rfl
      · rename_i h2
        simp only [Memory.find, ih]
        by_cases h : k = b
        · simp [← h, h2]
        · simp [h]

/-- A read after a write of one cell (R14, R43). -/
theorem Memory.read_write (font : FontData) (m : Memory) (a b : Nat) (v : Byte) :
    Memory.read font (Memory.write font m a v) b = if b = a then v else Memory.read font m b := by
  unfold Memory.write Memory.read
  by_cases hv : v = Memory.unlisted font a
  · by_cases h : b = a
    · simp [hv, Memory.find_erase, h]
    · simp [hv, Memory.find_erase, h]
  · by_cases h : b = a
    · simp [hv, Memory.find_insert, h]
    · simp [hv, Memory.find_insert, h]

theorem Memory.mem_insert {m : Memory} {a : Nat} {v : Byte} {c : Host.Cell}
    (h : c ∈ Memory.insert m a v) : c = (a, v) ∨ c ∈ m := by
  induction m with
  | nil => simpa [Memory.insert] using h
  | cons d m ih =>
    obtain ⟨k, w⟩ := d
    rw [Memory.insert] at h
    split at h
    · simpa using h
    · split at h
      · simp only [List.mem_cons] at h ⊢
        tauto
      · simp only [List.mem_cons] at h ⊢
        rcases h with h | h
        · exact .inr (.inl h)
        · exact (ih h).imp id .inr

theorem Memory.pairwise_insert {m : Memory} (a : Nat) (v : Byte)
    (h : m.Pairwise (fun c d => c.1 < d.1)) :
    (Memory.insert m a v).Pairwise (fun c d => c.1 < d.1) := by
  induction m with
  | nil => simp [Memory.insert]
  | cons d m ih =>
    obtain ⟨k, w⟩ := d
    rw [List.pairwise_cons] at h
    rw [Memory.insert]
    split
    · rename_i hlt
      refine List.pairwise_cons.2 ⟨?_, List.pairwise_cons.2 h⟩
      intro c hc
      rcases List.mem_cons.1 hc with rfl | hc
      · exact hlt
      · exact hlt.trans (h.1 c hc)
    · split
      · rename_i hk
        subst hk
        exact List.pairwise_cons.2 h
      · rename_i h1 h2
        refine List.pairwise_cons.2 ⟨?_, ih h.2⟩
        intro c hc
        rcases Memory.mem_insert hc with rfl | hc
        · show k < a
          omega
        · exact h.1 c hc

/-! ## The canonical form -/

/-- The empty memory is canonical. -/
theorem Memory.wf_nil (font : FontData) : Memory.wf font [] := by simp [Memory.wf]

/-- A write of one cell keeps the canonical form. -/
theorem Memory.wf_write {font : FontData} {m : Memory} (h : Memory.wf font m) {a : Nat}
    (ha : a < memSize) (v : Byte) : Memory.wf font (Memory.write font m a v) := by
  unfold Memory.write
  split
  · exact ⟨h.1.filter _, fun c hc => h.2 c (List.mem_filter.1 hc).1⟩
  · rename_i hv
    refine ⟨Memory.pairwise_insert a v h.1, fun c hc => ?_⟩
    rcases Memory.mem_insert hc with rfl | hc
    · exact ⟨ha, hv⟩
    · exact h.2 c hc

/-- A masked address is below 4096 (R43). -/
theorem memIndex_lt (a : Word) : memIndex a < memSize := by
  have h : memIndex a = a.toNat &&& 0xFFF := by simp [memIndex]
  rw [h]
  exact Nat.lt_of_le_of_lt Nat.and_le_right (by decide)

/-- The mask keeps the low 12 bits: the address mod 4096 (R43). -/
theorem memIndex_eq_mod (a : Word) : memIndex a = a.toNat % 4096 := by
  have h : memIndex a = a.toNat &&& 0xFFF := by simp [memIndex]
  rw [h]
  exact Nat.and_two_pow_sub_one_eq_mod a.toNat 12

/-- `MemWrite` keeps the canonical form. -/
theorem State.memWrite_wf {s : State} (h : Memory.wf s.cfg.font s.mem) (a : Word) (b : Byte) :
    Memory.wf (s.memWrite a b).cfg.font (s.memWrite a b).mem :=
  Memory.wf_write h (memIndex_lt a) b

/-- `MemRead` after `MemWrite`: the masked addresses decide (R14, R43). -/
@[simp] theorem State.memRead_memWrite (s : State) (a c : Word) (b : Byte) :
    (s.memWrite a b).memRead c = if memIndex c = memIndex a then b else s.memRead c :=
  Memory.read_write _ _ _ _ _

end Sys2Proof.Machine
end

