-- ==== Sys2Proof/Laws/Ops.lean ====
section
/-!
SUPPORT. What each shared operation can do, said once: the stack primitives, the bulk transfers, the
edge detector, the timers, the load of an image.
-/

namespace Sys2Proof.Machine

/-! ## The call stack (R29) -/

/-- Push below capacity. -/
theorem State.push_of_lt (s : State) (w : Word) (h : s.sp.val < 16) :
    s.push w =
      some (s.setStack (s.stack.set s.sp.val w) ⟨s.sp.val + 1, by omega⟩) := by
  simp [State.push, h]

/-- Push at capacity. -/
theorem State.push_of_full (s : State) (w : Word) (h : s.sp.val = 16) : s.push w = none := by
  simp [State.push, h]

/-- Pop of a stack that holds an entry. -/
theorem State.pop_of_pos (s : State) (h : 0 < s.sp.val) :
    s.pop =
      some (s.stack[s.sp.val - 1]'(by omega), s.setStack s.stack ⟨s.sp.val - 1, by omega⟩) := by
  simp [State.pop, h]

/-- Pop of the empty stack. -/
theorem State.pop_of_empty (s : State) (h : s.sp.val = 0) : s.pop = none := by
  simp [State.pop, h]

/-! ## The operand "byte at I plus an offset" (R43) -/

/-- Two offsets below 4096 reach two different bytes. -/
theorem memIndex_indexed_inj {s : State} {j k : Nat} (hj : j < 4096) (hk : k < 4096)
    (h : memIndex (indexed s j) = memIndex (indexed s k)) : j = k := by
  have hi := s.i.isLt
  simp only [memIndex_eq_mod, indexed, BitVec.toNat_add, BitVec.toNat_ofNat] at h
  omega

/-- The registers of a bulk transfer are V0..Vx. -/
theorem mem_regsUpTo {x k : Reg} : k ∈ regsUpTo x ↔ k ≤ x := by
  revert x k
  decide

theorem regsUpTo_nodup (x : Reg) : (regsUpTo x).Nodup := by
  revert x
  decide

/-! ## Bulk store (R120) -/

/-- Bytes stored one by one at I plus the register's number: nothing but memory changes. -/
theorem foldl_store_eq (l : List Reg) (s : State) :
    ∃ m, l.foldl (fun t k => t.memWrite (indexed t k.val) (t.getV k)) s = { s with mem := m } := by
  induction l generalizing s with
  | nil => exact ⟨s.mem, rfl⟩
  | cons k l ih =>
    obtain ⟨m, hm⟩ := ih (s.memWrite (indexed s k.val) (s.getV k))
    exact ⟨m, hm⟩

theorem foldl_store_memRead (l : List Reg) (hl : l.Nodup) (s : State) (a : Word) :
    (∀ k ∈ l, memIndex a = memIndex (indexed s k.val) →
      (l.foldl (fun t k => t.memWrite (indexed t k.val) (t.getV k)) s).memRead a = s.getV k) ∧
    ((∀ k ∈ l, memIndex a ≠ memIndex (indexed s k.val)) →
      (l.foldl (fun t k => t.memWrite (indexed t k.val) (t.getV k)) s).memRead a =
        s.memRead a) := by
  induction l generalizing s with
  | nil => simp
  | cons j l ih =>
    obtain ⟨hj, hl⟩ := List.nodup_cons.1 hl
    obtain ⟨hit, miss⟩ := ih hl (s.memWrite (indexed s j.val) (s.getV j))
    refine ⟨fun k hk ha => ?_, fun h => ?_⟩
    · rcases List.mem_cons.1 hk with rfl | hk
      · refine (miss fun i hi he => hj ?_).trans (by simp [ha])
        have : k.val = i.val := memIndex_indexed_inj (by omega) (by omega) (ha.symm.trans he)
        rwa [Fin.ext this]
      · exact hit k hk ha
    · refine (miss fun k hk => h k (List.mem_cons_of_mem _ hk)).trans ?_
      simp [h j List.mem_cons_self]

/-- A bulk store changes memory only. -/
theorem storeBulk_eq (s : State) (x : Reg) : ∃ m, storeBulk s x = { s with mem := m } :=
  foldl_store_eq _ s

@[simp] theorem storeBulk_v (s : State) (x : Reg) : (storeBulk s x).v = s.v := by
  obtain ⟨m, h⟩ := storeBulk_eq s x; rw [h]
@[simp] theorem storeBulk_pc (s : State) (x : Reg) : (storeBulk s x).pc = s.pc := by
  obtain ⟨m, h⟩ := storeBulk_eq s x; rw [h]
@[simp] theorem storeBulk_i (s : State) (x : Reg) : (storeBulk s x).i = s.i := by
  obtain ⟨m, h⟩ := storeBulk_eq s x; rw [h]
@[simp] theorem storeBulk_stack (s : State) (x : Reg) : (storeBulk s x).stack = s.stack := by
  obtain ⟨m, h⟩ := storeBulk_eq s x; rw [h]
@[simp] theorem storeBulk_sp (s : State) (x : Reg) : (storeBulk s x).sp = s.sp := by
  obtain ⟨m, h⟩ := storeBulk_eq s x; rw [h]
@[simp] theorem storeBulk_dt (s : State) (x : Reg) : (storeBulk s x).dt = s.dt := by
  obtain ⟨m, h⟩ := storeBulk_eq s x; rw [h]
@[simp] theorem storeBulk_st (s : State) (x : Reg) : (storeBulk s x).st = s.st := by
  obtain ⟨m, h⟩ := storeBulk_eq s x; rw [h]
@[simp] theorem storeBulk_display (s : State) (x : Reg) : (storeBulk s x).display = s.display := by
  obtain ⟨m, h⟩ := storeBulk_eq s x; rw [h]
@[simp] theorem storeBulk_keys (s : State) (x : Reg) : (storeBulk s x).keys = s.keys := by
  obtain ⟨m, h⟩ := storeBulk_eq s x; rw [h]
@[simp] theorem storeBulk_keysPrev (s : State) (x : Reg) : (storeBulk s x).keysPrev = s.keysPrev := by
  obtain ⟨m, h⟩ := storeBulk_eq s x; rw [h]
@[simp] theorem storeBulk_frameEdge (s : State) (x : Reg) : (storeBulk s x).frameEdge = s.frameEdge := by
  obtain ⟨m, h⟩ := storeBulk_eq s x; rw [h]
@[simp] theorem storeBulk_cycleInFrame (s : State) (x : Reg) : (storeBulk s x).cycleInFrame = s.cycleInFrame := by
  obtain ⟨m, h⟩ := storeBulk_eq s x; rw [h]
@[simp] theorem storeBulk_halted (s : State) (x : Reg) : (storeBulk s x).halted = s.halted := by
  obtain ⟨m, h⟩ := storeBulk_eq s x; rw [h]
@[simp] theorem storeBulk_inFrame (s : State) (x : Reg) : (storeBulk s x).inFrame = s.inFrame := by
  obtain ⟨m, h⟩ := storeBulk_eq s x; rw [h]
@[simp] theorem storeBulk_running (s : State) (x : Reg) : (storeBulk s x).running = s.running := by
  obtain ⟨m, h⟩ := storeBulk_eq s x; rw [h]
@[simp] theorem storeBulk_out (s : State) (x : Reg) : (storeBulk s x).out = s.out := by
  obtain ⟨m, h⟩ := storeBulk_eq s x; rw [h]
@[simp] theorem storeBulk_cfg (s : State) (x : Reg) : (storeBulk s x).cfg = s.cfg := by
  obtain ⟨m, h⟩ := storeBulk_eq s x; rw [h]
@[simp] theorem storeBulk_keysIn (s : State) (x : Reg) : (storeBulk s x).keysIn = s.keysIn := by
  obtain ⟨m, h⟩ := storeBulk_eq s x; rw [h]
@[simp] theorem storeBulk_framesStarted (s : State) (x : Reg) : (storeBulk s x).framesStarted = s.framesStarted := by
  obtain ⟨m, h⟩ := storeBulk_eq s x; rw [h]
@[simp] theorem storeBulk_randIn (s : State) (x : Reg) : (storeBulk s x).randIn = s.randIn := by
  obtain ⟨m, h⟩ := storeBulk_eq s x; rw [h]
@[simp] theorem storeBulk_randDrawn (s : State) (x : Reg) : (storeBulk s x).randDrawn = s.randDrawn := by
  obtain ⟨m, h⟩ := storeBulk_eq s x; rw [h]
@[simp] theorem storeBulk_getV (s : State) (x r : Reg) :
    (storeBulk s x).getV r = s.getV r := by
  obtain ⟨m, h⟩ := storeBulk_eq s x; rw [h]; rfl
@[simp] theorem storeBulk_pixel (s : State) (x : Reg) (py : Fin 32) (px : Fin 64) :
    (storeBulk s x).pixel py px = s.pixel py px := by
  obtain ⟨m, h⟩ := storeBulk_eq s x; rw [h]; rfl

/-- A bulk store puts V[k] at I + k, for k up to x. -/
theorem storeBulk_memRead_hit (s : State) (x k : Reg) (h : k ≤ x) (a : Word)
    (ha : memIndex a = memIndex (indexed s k.val)) : (storeBulk s x).memRead a = s.getV k :=
  (foldl_store_memRead _ (regsUpTo_nodup x) s a).1 k (mem_regsUpTo.2 h) ha

/-- A bulk store leaves every byte outside I..I+x. -/
theorem storeBulk_memRead_miss (s : State) (x : Reg) (a : Word)
    (h : ∀ k : Reg, k ≤ x → memIndex a ≠ memIndex (indexed s k.val)) :
    (storeBulk s x).memRead a = s.memRead a :=
  (foldl_store_memRead _ (regsUpTo_nodup x) s a).2 fun k hk => h k (mem_regsUpTo.1 hk)

/-- A bulk store keeps the canonical form of memory. -/
theorem storeBulk_wf (s : State) (x : Reg) (h : Memory.wf s.cfg.font s.mem) :
    Memory.wf (storeBulk s x).cfg.font (storeBulk s x).mem := by
  unfold storeBulk
  generalize regsUpTo x = l
  induction l generalizing s with
  | nil => exact h
  | cons k l ih => exact ih _ (State.memWrite_wf h _ _)

/-! ## Bulk load (R121) -/

theorem foldl_load_eq (l : List Reg) (s : State) :
    ∃ v, l.foldl (fun t k => t.setV k (t.memRead (indexed t k.val))) s = { s with v := v } := by
  induction l generalizing s with
  | nil => exact ⟨s.v, rfl⟩
  | cons k l ih =>
    obtain ⟨v, hv⟩ := ih (s.setV k (s.memRead (indexed s k.val)))
    exact ⟨v, hv⟩

theorem foldl_load_getV (l : List Reg) (s : State) (r : Reg) :
    (l.foldl (fun t k => t.setV k (t.memRead (indexed t k.val))) s).getV r =
      if r ∈ l then s.memRead (indexed s r.val) else s.getV r := by
  induction l generalizing s with
  | nil => simp
  | cons k l ih =>
    rw [List.foldl_cons, ih]
    have hi : indexed (s.setV k (s.memRead (indexed s k.val))) r.val = indexed s r.val := rfl
    by_cases h1 : r ∈ l
    · simp [h1, hi]
    · by_cases h2 : r = k
      · subst h2; simp [h1]
      · simp [h1, h2]

/-- A bulk load changes the general registers only. -/
theorem loadBulk_eq (s : State) (x : Reg) : ∃ v, loadBulk s x = { s with v := v } :=
  foldl_load_eq _ s

@[simp] theorem loadBulk_mem (s : State) (x : Reg) : (loadBulk s x).mem = s.mem := by
  obtain ⟨v, h⟩ := loadBulk_eq s x; rw [h]
@[simp] theorem loadBulk_pc (s : State) (x : Reg) : (loadBulk s x).pc = s.pc := by
  obtain ⟨v, h⟩ := loadBulk_eq s x; rw [h]
@[simp] theorem loadBulk_i (s : State) (x : Reg) : (loadBulk s x).i = s.i := by
  obtain ⟨v, h⟩ := loadBulk_eq s x; rw [h]
@[simp] theorem loadBulk_stack (s : State) (x : Reg) : (loadBulk s x).stack = s.stack := by
  obtain ⟨v, h⟩ := loadBulk_eq s x; rw [h]
@[simp] theorem loadBulk_sp (s : State) (x : Reg) : (loadBulk s x).sp = s.sp := by
  obtain ⟨v, h⟩ := loadBulk_eq s x; rw [h]
@[simp] theorem loadBulk_dt (s : State) (x : Reg) : (loadBulk s x).dt = s.dt := by
  obtain ⟨v, h⟩ := loadBulk_eq s x; rw [h]
@[simp] theorem loadBulk_st (s : State) (x : Reg) : (loadBulk s x).st = s.st := by
  obtain ⟨v, h⟩ := loadBulk_eq s x; rw [h]
@[simp] theorem loadBulk_display (s : State) (x : Reg) : (loadBulk s x).display = s.display := by
  obtain ⟨v, h⟩ := loadBulk_eq s x; rw [h]
@[simp] theorem loadBulk_keys (s : State) (x : Reg) : (loadBulk s x).keys = s.keys := by
  obtain ⟨v, h⟩ := loadBulk_eq s x; rw [h]
@[simp] theorem loadBulk_keysPrev (s : State) (x : Reg) : (loadBulk s x).keysPrev = s.keysPrev := by
  obtain ⟨v, h⟩ := loadBulk_eq s x; rw [h]
@[simp] theorem loadBulk_frameEdge (s : State) (x : Reg) : (loadBulk s x).frameEdge = s.frameEdge := by
  obtain ⟨v, h⟩ := loadBulk_eq s x; rw [h]
@[simp] theorem loadBulk_cycleInFrame (s : State) (x : Reg) : (loadBulk s x).cycleInFrame = s.cycleInFrame := by
  obtain ⟨v, h⟩ := loadBulk_eq s x; rw [h]
@[simp] theorem loadBulk_halted (s : State) (x : Reg) : (loadBulk s x).halted = s.halted := by
  obtain ⟨v, h⟩ := loadBulk_eq s x; rw [h]
@[simp] theorem loadBulk_inFrame (s : State) (x : Reg) : (loadBulk s x).inFrame = s.inFrame := by
  obtain ⟨v, h⟩ := loadBulk_eq s x; rw [h]
@[simp] theorem loadBulk_running (s : State) (x : Reg) : (loadBulk s x).running = s.running := by
  obtain ⟨v, h⟩ := loadBulk_eq s x; rw [h]
@[simp] theorem loadBulk_out (s : State) (x : Reg) : (loadBulk s x).out = s.out := by
  obtain ⟨v, h⟩ := loadBulk_eq s x; rw [h]
@[simp] theorem loadBulk_cfg (s : State) (x : Reg) : (loadBulk s x).cfg = s.cfg := by
  obtain ⟨v, h⟩ := loadBulk_eq s x; rw [h]
@[simp] theorem loadBulk_keysIn (s : State) (x : Reg) : (loadBulk s x).keysIn = s.keysIn := by
  obtain ⟨v, h⟩ := loadBulk_eq s x; rw [h]
@[simp] theorem loadBulk_framesStarted (s : State) (x : Reg) : (loadBulk s x).framesStarted = s.framesStarted := by
  obtain ⟨v, h⟩ := loadBulk_eq s x; rw [h]
@[simp] theorem loadBulk_randIn (s : State) (x : Reg) : (loadBulk s x).randIn = s.randIn := by
  obtain ⟨v, h⟩ := loadBulk_eq s x; rw [h]
@[simp] theorem loadBulk_randDrawn (s : State) (x : Reg) : (loadBulk s x).randDrawn = s.randDrawn := by
  obtain ⟨v, h⟩ := loadBulk_eq s x; rw [h]
@[simp] theorem loadBulk_memRead (s : State) (x : Reg) (a : Word) :
    (loadBulk s x).memRead a = s.memRead a := by
  obtain ⟨v, h⟩ := loadBulk_eq s x; rw [h]; rfl
@[simp] theorem loadBulk_pixel (s : State) (x : Reg) (py : Fin 32) (px : Fin 64) :
    (loadBulk s x).pixel py px = s.pixel py px := by
  obtain ⟨v, h⟩ := loadBulk_eq s x; rw [h]; rfl

/-- A bulk load, register by register. -/
theorem loadBulk_getV (s : State) (x r : Reg) :
    (loadBulk s x).getV r = if r ≤ x then s.memRead (indexed s r.val) else s.getV r := by
  simp only [loadBulk, foldl_load_getV, mem_regsUpTo]

/-! ## Frame start -/

/-- A timer tick never goes below zero (R132). -/
theorem countDown_toNat (b : Byte) : (countDown b).toNat = b.toNat - 1 := by
  have hb := b.isLt
  unfold countDown
  split
  · rename_i h; simp [h]
  · rename_i h
    have : b.toNat ≠ 0 := fun e => h (BitVec.eq_of_toNat_eq e)
    have h1 : (1 : Byte).toNat = 1 := rfl
    rw [BitVec.toNat_sub, h1]
    omega

/-- The edge detector reports a key exactly when it is the lowest with an edge (R135). -/
theorem edgeDetect_eq_some {r : Bool} {p c : KeySnapshot} {k : Key} :
    edgeDetect r p c = some k ↔ hasEdge r p c k = true ∧ ∀ j < k, hasEdge r p c j = false := by
  unfold edgeDetect
  rw [List.find?_eq_some_iff_getElem]
  constructor
  · rintro ⟨hk, i, hi, hik, hlt⟩
    refine ⟨hk, fun j hj => ?_⟩
    have hki : k.val = i := by rw [← hik]; simp
    have := hlt j.val (by have : j.val < k.val := hj; omega)
    simpa using this
  · rintro ⟨hk, hlt⟩
    refine ⟨hk, k.val, by simp, by simp, fun j hj => ?_⟩
    have := hlt ⟨j, by omega⟩ hj
    simpa using this

/-- The edge detector reports none exactly when no key has an edge (R135). -/
theorem edgeDetect_eq_none {r : Bool} {p c : KeySnapshot} :
    edgeDetect r p c = none ↔ ∀ k, hasEdge r p c k = false := by
  simp [edgeDetect]

/-- The key latch is `set_key_state` for all 16 keys, one after the other (R134). -/
theorem latchKeys_eq_setKeyState (s : State) :
    (s.latchKeys).keys =
      ((List.finRange 16).foldl (fun t k => t.setKeyState k s.nextKeys[k]) s).keys := by
  refine Vector.ext fun k hk => ?_
  have h : ∀ (l : List Key) (t : State),
      (l.foldl (fun t k => t.setKeyState k s.nextKeys[k]) t).keys[k] =
        if (⟨k, hk⟩ : Key) ∈ l then s.nextKeys[k] else t.keys[k] := by
    intro l
    induction l with
    | nil => simp
    | cons j l ih =>
      intro t
      rw [List.foldl_cons, ih]
      by_cases h1 : (⟨k, hk⟩ : Key) ∈ l
      · simp [h1]
      · by_cases h2 : j.val = k
        · subst h2; simp [h1, State.setKeyState]
        · have : ¬(⟨k, hk⟩ : Key) = j := fun e => h2 (congrArg Fin.val e).symm
          simp [h1, this, State.setKeyState, h2]
  simpa using (h (List.finRange 16) s).symm

/-! ## load (R147, R148, R56) -/

/-- What `load` can do: refuse an image that is too long, refuse during a run, or copy. -/
theorem State.load_cases (s : State) (image : List Byte) :
    (progMax < image.length ∧ s.load image = .refused (.imageTooLong image.length)) ∨
      (image.length ≤ progMax ∧ s.running = true ∧ s.load image = .refused .loadDuringRun) ∨
      (image.length ≤ progMax ∧ s.running = false ∧ s.load image = .next (storeImage s 0 image)) := by
  by_cases h : progMax < image.length
  · exact .inl ⟨h, by simp [State.load, h]⟩
  · cases hr : s.running
    · exact .inr (.inr ⟨by omega, rfl, by simp [State.load, h, hr]⟩)
    · exact .inr (.inl ⟨by omega, rfl, by simp [State.load, h, hr]⟩)

/-- Storing an image changes nothing but memory. -/
theorem storeImage_eq (image : List Byte) (s : State) (k : Nat) :
    ∃ m, storeImage s k image = { s with mem := m } := by
  induction image generalizing s k with
  | nil => exact ⟨s.mem, rfl⟩
  | cons b bs ih =>
    obtain ⟨m, hm⟩ := ih (s.memWrite (0x200 + BitVec.ofNat 16 k) b) (k + 1)
    exact ⟨m, hm⟩

/-- Storing an image keeps the canonical form. -/
theorem storeImage_wf (image : List Byte) (s : State) (k : Nat)
    (h : Memory.wf s.cfg.font s.mem) : Memory.wf s.cfg.font (storeImage s k image).mem := by
  induction image generalizing s k with
  | nil => exact h
  | cons b bs ih => exact ih _ (k + 1) (State.memWrite_wf h _ _)

/-- What every address reads as after an image has been stored from offset k on. -/
theorem storeImage_memRead (image : List Byte) (s : State) (k : Nat) (hk : k + image.length ≤ progMax)
    (a : Word) :
    (storeImage s k image).memRead a =
      if h : 0x200 + k ≤ a.toNat % 4096 ∧ a.toNat % 4096 < 0x200 + k + image.length then
        image[a.toNat % 4096 - 0x200 - k]
      else s.memRead a := by
  induction image generalizing s k with
  | nil =>
    rw [dif_neg (by simp only [List.length_nil]; omega)]
    rfl
  | cons b bs ih =>
    simp only [List.length_cons, progMax] at hk
    have hx : (0x200 + BitVec.ofNat 16 k : Word).toNat = 0x200 + k := by
      have h512 : (0x200 : Word).toNat = 0x200 := rfl
      rw [BitVec.toNat_add, BitVec.toNat_ofNat, h512]
      omega
    rw [storeImage, ih _ _ (by simp only [progMax]; omega)]
    simp only [State.memRead_memWrite, memIndex_eq_mod, hx, List.length_cons]
    by_cases h1 : a.toNat % 4096 = 0x200 + k
    · rw [dif_neg (by omega), if_pos (by omega), dif_pos (by omega)]
      simp [h1]
    · by_cases h2 : 0x200 + (k + 1) ≤ a.toNat % 4096 ∧ a.toNat % 4096 < 0x200 + (k + 1) + bs.length
      · rw [dif_pos h2, dif_pos (by omega)]
        have : a.toNat % 4096 - 0x200 - k = a.toNat % 4096 - 0x200 - (k + 1) + 1 := by omega
        simp [this]
      · rw [dif_neg h2, if_neg (by omega), dif_neg (by omega)]

end Sys2Proof.Machine
end

