-- ==== Sys2Proof/Laws/Display.lean ====
section
/-!
SUPPORT. The sprite blit pixel by pixel (R105, R106, R108): it toggles exactly the targets of the
sprite's 1 bits, each once, and collides exactly when one of them was lit.
-/

namespace Sys2Proof.Machine

/-- The target of one sprite pixel, none when it is discarded or its bit is 0. -/
def toggled (clip : Bool) (x0 y0 : Nat) (rows : Nat → Byte) (rc : Nat × Nat) :
    Option (Fin 32 × Fin 64) :=
  if spriteBit (rows rc.1) rc.2 then spriteTarget clip x0 y0 rc.1 rc.2 else none

/-- Toggle one pixel and note whether it was lit. -/
def toggle (acc : Display × Bool) (p : Fin 32 × Fin 64) : Display × Bool :=
  (acc.1.set p.1 (acc.1[p.1].set p.2 (!acc.1[p.1][p.2])), acc.2 || acc.1[p.1][p.2])

/-- A sprite row by row, pixel by pixel, as one list of places. -/
def places (n : Nat) : List (Nat × Nat) := (List.range n).flatMap fun r => (List.range 8).map (r, ·)

theorem mem_places {n : Nat} {rc : Nat × Nat} : rc ∈ places n ↔ rc.1 < n ∧ rc.2 < 8 := by
  obtain ⟨r, c⟩ := rc
  simp [places]

theorem places_nodup (n : Nat) : (places n).Nodup := by
  have h : places n = (List.range n) ×ˢ (List.range 8) := rfl
  rw [h]
  exact List.nodup_range.product List.nodup_range

theorem blitPixel_eq_toggled (clip : Bool) (x0 y0 : Nat) (rows : Nat → Byte) (r c : Nat)
    (acc : Display × Bool) :
    blitPixel clip x0 y0 (rows r) r acc c =
      ((toggled clip x0 y0 rows (r, c)).toList).foldl toggle acc := by
  unfold blitPixel toggled
  by_cases h : spriteBit (rows r) c = true
  · simp only [h, if_true]
    cases spriteTarget clip x0 y0 r c <;> rfl
  · simp only [h, Bool.false_eq_true, if_false, Option.toList_none, List.foldl_nil]
    cases spriteTarget clip x0 y0 r c <;> rfl

/-- The blit is the toggling of a list of pixels, one after the other. -/
theorem blit_eq_foldl (s : State) (x y : Reg) (n : Nat) :
    blit s x y n =
      ((places n).filterMap
        (toggled (clipSprites s.cfg.qcfg) (startColumn s x) (startRow s y) (spriteRow s))).foldl
          toggle (s.display, false) := by
  unfold blit blitRow places
  generalize (s.display, false) = acc
  generalize List.range n = rs
  induction rs generalizing acc with
  | nil => rfl
  | cons r rs ih =>
    rw [List.foldl_cons, ih, List.flatMap_cons, List.filterMap_append, List.foldl_append]
    congr 1
    generalize List.range 8 = cs
    induction cs generalizing acc with
    | nil => rfl
    | cons c cs ihc =>
      rw [List.foldl_cons, ihc, blitPixel_eq_toggled, List.map_cons, List.filterMap_cons]
      cases toggled (clipSprites s.cfg.qcfg) (startColumn s x) (startRow s y) (spriteRow s) (r, c)
        <;> rfl

theorem toggle_pixel (acc : Display × Bool) (p : Fin 32 × Fin 64) (py : Fin 32) (px : Fin 64) :
    (toggle acc p).1[py][px] = (acc.1[py][px] ^^ decide ((py, px) = p)) := by
  obtain ⟨qy, qx⟩ := p
  simp only [toggle, Fin.getElem_fin, Vector.getElem_set, Prod.mk.injEq, Fin.ext_iff]
  by_cases h1 : qy.val = py.val
  · by_cases h2 : qx.val = px.val
    · simp [h1, h2]
    · simp [h1, h2, Ne.symm h2]
  · simp [h1, Ne.symm h1]

/-- Toggling distinct pixels flips exactly those and collides exactly when one was lit. -/
theorem foldl_toggle (l : List (Fin 32 × Fin 64)) (hl : l.Nodup) (acc : Display × Bool) :
    (∀ py px, (l.foldl toggle acc).1[py][px] = (acc.1[py][px] ^^ decide ((py, px) ∈ l))) ∧
      (l.foldl toggle acc).2 = (acc.2 || decide (∃ p ∈ l, acc.1[p.1][p.2] = true)) := by
  induction l generalizing acc with
  | nil => simp
  | cons p l ih =>
    obtain ⟨hp, hl⟩ := List.nodup_cons.1 hl
    obtain ⟨h1, h2⟩ := ih hl (toggle acc p)
    refine ⟨fun py px => ?_, ?_⟩
    · rw [List.foldl_cons, h1, toggle_pixel]
      by_cases e : (py, px) = p
      · simp [e, hp]
      · simp [e]
    · rw [List.foldl_cons, h2]
      have hq : (∃ q ∈ l, (toggle acc p).1[q.1][q.2] = true) ↔ ∃ q ∈ l, acc.1[q.1][q.2] = true := by
        refine exists_congr fun q => and_congr_right fun hq => ?_
        have : q ≠ p := fun e => hp (e ▸ hq)
        rw [toggle_pixel]
        simp [this]
      have ht : (toggle acc p).2 = (acc.2 || acc.1[p.1][p.2]) := rfl
      rw [Bool.eq_iff_iff, ht, Bool.or_eq_true, decide_eq_true_iff, hq]
      simp only [Bool.or_eq_true, decide_eq_true_eq, List.exists_mem_cons_iff, or_assoc]

theorem spriteTarget_inj {clip : Bool} {x0 y0 : Nat} {a b : Nat × Nat} {p : Fin 32 × Fin 64}
    (ha : a.1 < 32 ∧ a.2 < 8) (hb : b.1 < 32 ∧ b.2 < 8)
    (h1 : spriteTarget clip x0 y0 a.1 a.2 = some p)
    (h2 : spriteTarget clip x0 y0 b.1 b.2 = some p) : a = b := by
  unfold spriteTarget at h1 h2
  split at h1
  · cases h1
  · split at h2
    · cases h2
    · have h := (Option.some.inj h1).trans (Option.some.inj h2).symm
      simp only [Prod.mk.injEq, Fin.ext_iff, Fin.val_ofNat] at h
      exact Prod.ext (by omega) (by omega)

theorem toggled_eq_some {clip : Bool} {x0 y0 : Nat} {rows : Nat → Byte} {rc : Nat × Nat}
    {p : Fin 32 × Fin 64} : toggled clip x0 y0 rows rc = some p ↔
      spriteBit (rows rc.1) rc.2 = true ∧ spriteTarget clip x0 y0 rc.1 rc.2 = some p := by
  unfold toggled
  split <;> simp [*]

/-- The pixels a sprite of at most 15 rows toggles are distinct (R108 (b)). -/
theorem toggled_nodup (clip : Bool) (x0 y0 : Nat) (rows : Nat → Byte) (n : Nat) (hn : n ≤ 32) :
    ((places n).filterMap (toggled clip x0 y0 rows)).Nodup := by
  rw [List.Nodup, List.pairwise_filterMap]
  refine (places_nodup n).imp_of_mem fun {a b} ha hb hab p hp q hq e => hab ?_
  have ha := mem_places.1 ha
  have hb := mem_places.1 hb
  subst e
  exact spriteTarget_inj ⟨by omega, ha.2⟩ ⟨by omega, hb.2⟩ (toggled_eq_some.1 hp).2
    (toggled_eq_some.1 hq).2

/-- A pixel is toggled exactly when some 1 bit of the sprite targets it. -/
theorem mem_toggled {clip : Bool} {x0 y0 : Nat} {rows : Nat → Byte} {n : Nat}
    {p : Fin 32 × Fin 64} :
    p ∈ (places n).filterMap (toggled clip x0 y0 rows) ↔
      ∃ r < n, ∃ c < 8, spriteBit (rows r) c = true ∧ spriteTarget clip x0 y0 r c = some p := by
  simp only [List.mem_filterMap, mem_places, toggled_eq_some, Prod.exists]
  constructor
  · rintro ⟨r, c, ⟨hr, hc⟩, h⟩
    exact ⟨r, hr, c, hc, h⟩
  · rintro ⟨r, hr, c, hc, h⟩
    exact ⟨r, c, ⟨hr, hc⟩, h⟩

/-- The blit, pixel by pixel (R105). -/
theorem blit_spec (s : State) (x y : Reg) (n : Nat) (hn : n ≤ 32) (lit : Fin 32 → Fin 64 → Bool)
    (hlit : ∀ py px, lit py px = true ↔ ∃ r < n, ∃ c < 8, spriteBit (spriteRow s r) c = true ∧
      spriteTarget (clipSprites s.cfg.qcfg) (startColumn s x) (startRow s y) r c = some (py, px)) :
    (∀ py px, (blit s x y n).1[py][px] = (s.pixel py px ^^ lit py px)) ∧
      ((blit s x y n).2 = true ↔ ∃ py px, lit py px = true ∧ s.pixel py px = true) := by
  rw [blit_eq_foldl]
  have hmem : ∀ py px, (py, px) ∈ (places n).filterMap (toggled (clipSprites s.cfg.qcfg)
      (startColumn s x) (startRow s y) (spriteRow s)) ↔ lit py px = true :=
    fun py px => mem_toggled.trans (hlit py px).symm
  obtain ⟨h1, h2⟩ := foldl_toggle _ (toggled_nodup (clipSprites s.cfg.qcfg) (startColumn s x)
    (startRow s y) (spriteRow s) n hn) (s.display, false)
  refine ⟨fun py px => ?_, ?_⟩
  · rw [h1]
    simp only [hmem, Bool.decide_eq_true]
    rfl
  · rw [h2]
    simp only [Bool.false_or, decide_eq_true_eq, Prod.exists, hmem]
    rfl

end Sys2Proof.Machine
end

