-- ==== Sys2Proof/Laws/PerInstr.lean ====
section
/-!
SUPPORT. Facts about every instruction as syntax, one lemma per constructor.
-/

namespace Sys2Proof.Laws.EncodeFamily

/-- The top four bits of an instruction's word are its opcode family (R17, R60, R63). -/
def Statement (i : Instr) : Prop := (fieldsOf (encode i)).op = i.family

theorem cls : Statement .cls := rfl
theorem ret : Statement .ret := rfl
theorem jp (nnn : Addr) : Statement (.jp nnn) := (fieldsOf_wordNNN _ nnn).1
theorem call (nnn : Addr) : Statement (.call nnn) := (fieldsOf_wordNNN _ nnn).1
theorem seByte (x : Reg) (nn : Byte) : Statement (.seByte x nn) := (fieldsOf_wordXNN _ x nn).1
theorem sneByte (x : Reg) (nn : Byte) : Statement (.sneByte x nn) := (fieldsOf_wordXNN _ x nn).1
theorem seReg (x y : Reg) : Statement (.seReg x y) := (fieldsOf_wordXYN _ x y _).1
theorem ldByte (x : Reg) (nn : Byte) : Statement (.ldByte x nn) := (fieldsOf_wordXNN _ x nn).1
theorem addByte (x : Reg) (nn : Byte) : Statement (.addByte x nn) := (fieldsOf_wordXNN _ x nn).1
theorem ldReg (x y : Reg) : Statement (.ldReg x y) := (fieldsOf_wordXYN _ x y _).1
theorem orReg (x y : Reg) : Statement (.orReg x y) := (fieldsOf_wordXYN _ x y _).1
theorem andReg (x y : Reg) : Statement (.andReg x y) := (fieldsOf_wordXYN _ x y _).1
theorem xorReg (x y : Reg) : Statement (.xorReg x y) := (fieldsOf_wordXYN _ x y _).1
theorem addReg (x y : Reg) : Statement (.addReg x y) := (fieldsOf_wordXYN _ x y _).1
theorem subReg (x y : Reg) : Statement (.subReg x y) := (fieldsOf_wordXYN _ x y _).1
theorem shr (x y : Reg) : Statement (.shr x y) := (fieldsOf_wordXYN _ x y _).1
theorem subnReg (x y : Reg) : Statement (.subnReg x y) := (fieldsOf_wordXYN _ x y _).1
theorem shl (x y : Reg) : Statement (.shl x y) := (fieldsOf_wordXYN _ x y _).1
theorem sneReg (x y : Reg) : Statement (.sneReg x y) := (fieldsOf_wordXYN _ x y _).1
theorem ldI (nnn : Addr) : Statement (.ldI nnn) := (fieldsOf_wordNNN _ nnn).1
theorem jpV0 (x : Reg) (nnn : Addr) : Statement (.jpV0 x nnn) := (fieldsOf_wordNNN _ nnn).1
theorem rnd (x : Reg) (nn : Byte) : Statement (.rnd x nn) := (fieldsOf_wordXNN _ x nn).1
theorem drw (x y : Reg) (n : Nibble) : Statement (.drw x y n) := (fieldsOf_wordXYN _ x y n).1
theorem skp (x : Reg) : Statement (.skp x) := (fieldsOf_wordXNN _ x _).1
theorem sknp (x : Reg) : Statement (.sknp x) := (fieldsOf_wordXNN _ x _).1
theorem ldVxDT (x : Reg) : Statement (.ldVxDT x) := (fieldsOf_wordXNN _ x _).1
theorem ldVxK (x : Reg) : Statement (.ldVxK x) := (fieldsOf_wordXNN _ x _).1
theorem ldDTVx (x : Reg) : Statement (.ldDTVx x) := (fieldsOf_wordXNN _ x _).1
theorem ldSTVx (x : Reg) : Statement (.ldSTVx x) := (fieldsOf_wordXNN _ x _).1
theorem addI (x : Reg) : Statement (.addI x) := (fieldsOf_wordXNN _ x _).1
theorem ldF (x : Reg) : Statement (.ldF x) := (fieldsOf_wordXNN _ x _).1
theorem ldB (x : Reg) : Statement (.ldB x) := (fieldsOf_wordXNN _ x _).1
theorem storeRegs (x : Reg) : Statement (.storeRegs x) := (fieldsOf_wordXNN _ x _).1
theorem loadRegs (x : Reg) : Statement (.loadRegs x) := (fieldsOf_wordXNN _ x _).1

end Sys2Proof.Laws.EncodeFamily
end

