-- ==== Sys2Proof/Laws/Step.lean ====
section
/-!
SUPPORT. What a cycle and a step can do, said once.
-/

namespace Sys2Proof.Machine

/-- A cycle runs the instruction it fetches, or reports an invalid word. -/
theorem cycle_cases {s t : State} (h : cycle s = .next t) :
    (∃ i, decodeWord s.fetchWord = .ok i ∧ exec i (s.setPc (s.pc + 2)) = .next t) ∨
      (∃ e, decodeWord s.fetchWord = .error e ∧
        t = (s.setPc (s.pc + 2)).raise .invalidInstruction) := by
  unfold cycle at h
  split at h
  · exact .inl ⟨_, ‹_›, h⟩
  · refine .inr ⟨_, ‹_›, ?_⟩
    simpa [invalidWord, raiseOutcome, eq_comm] using h

/-- A cycle the sequencer issues is a cycle and its end. -/
theorem issueCycle_cases {s t : State} (h : issueCycle s = .next t) :
    ∃ u, cycle s = .next u ∧ t = endCycle u := by
  unfold issueCycle at h
  split at h
  · exact ⟨_, ‹_›, by simpa [eq_comm] using h⟩
  · cases h
  · cases h

/-- A step of the machine: it is halted, or a cycle is due and is issued, or a frame starts. -/
theorem step_cases {s t : State} (h : step s = .next t) :
    (s.halted = true ∧ t = s) ∨
      (s.halted = false ∧ s.cycleDue = true ∧ ∃ u, cycle s = .next u ∧ t = endCycle u) ∨
      (s.halted = false ∧ s.cycleDue = false ∧ t = frameStart s) := by
  unfold step at h
  split at h
  · exact .inl ⟨‹_›, by simpa [eq_comm] using h⟩
  · split at h
    · exact .inr (.inl ⟨by simp_all, ‹_›, issueCycle_cases h⟩)
    · exact .inr (.inr ⟨by simp_all, by simp_all, by simpa [eq_comm] using h⟩)

/-- An invariant that every frame start and every issued cycle keeps holds along every run. -/
theorem run_keeps (P : State → Prop) (hstep : ∀ s t, P s → step s = .next t → P t) (n : Nat)
    (s t : State) (hs : P s) (h : Host.Core.run Sys2Proof.core n s = .next t) : P t := by
  induction n generalizing s with
  | zero =>
    exact (Host.Outcome.next.inj h : s = t) ▸ hs
  | succ n ih =>
    simp only [Host.Core.run] at h
    split at h
    · rename_i u hu
      exact ih u (hstep s u hs hu) h
    · cases h
    · cases h

end Sys2Proof.Machine
end

