-- ==== Sys2Proof/Tests/Slice0.lean ====
section
/-!
SUPPORT. The model's own tests. Expected results come from spec/ (the vector or rule is named); the
decode tests are words written out from the patterns of 30_encoding.md rule R63. At the end, for every
statement with hypotheses, a concrete state and operands that meet them.
-/

namespace Sys2Proof.Tests

open Sys2Proof Sys2Proof.Machine

/-! ## WellFormed -/

/-- `JP V0, addr` names its register twice (R88): 0x220 names V2, not V3. -/
theorem test_wellFormed_refuses_jpV0_register : (Instr.jpV0 3 0x220).wellFormed = false := by decide

/-! ## Decode: one word per instruction, by family -/

theorem test_decode_family_0 :
    decodeWord 0b0000000011100000 = .ok .cls ∧ decodeWord 0b0000000011101110 = .ok .ret := by decide
theorem test_decode_family_1 : decodeWord 0b0001001101001010 = .ok (.jp 0x34A) := by decide
theorem test_decode_family_2 : decodeWord 0b0010001000010000 = .ok (.call 0x210) := by decide
theorem test_decode_family_3 : decodeWord 0b0011001100010000 = .ok (.seByte 3 0x10) := by decide
theorem test_decode_family_4 : decodeWord 0b0100001100010001 = .ok (.sneByte 3 0x11) := by decide
theorem test_decode_family_5 : decodeWord 0b0101000100100000 = .ok (.seReg 1 2) := by decide
theorem test_decode_family_6 : decodeWord 0b0110101010011100 = .ok (.ldByte 0xA 0x9C) := by decide
theorem test_decode_family_7 : decodeWord 0b0111000111111111 = .ok (.addByte 1 0xFF) := by decide
theorem test_decode_family_8 :
    decodeWord 0x8120 = .ok (.ldReg 1 2) ∧ decodeWord 0x8121 = .ok (.orReg 1 2) ∧
    decodeWord 0x8122 = .ok (.andReg 1 2) ∧ decodeWord 0x8123 = .ok (.xorReg 1 2) ∧
    decodeWord 0x8124 = .ok (.addReg 1 2) ∧ decodeWord 0x8125 = .ok (.subReg 1 2) ∧
    decodeWord 0x8126 = .ok (.shr 1 2) ∧ decodeWord 0x8127 = .ok (.subnReg 1 2) ∧
    decodeWord 0x812E = .ok (.shl 1 2) := by decide
theorem test_decode_family_9 : decodeWord 0b1001000100100000 = .ok (.sneReg 1 2) := by decide
theorem test_decode_family_A : decodeWord 0b1010001100000000 = .ok (.ldI 0x300) := by decide
theorem test_decode_family_B : decodeWord 0b1011001000100000 = .ok (.jpV0 2 0x220) := by decide
theorem test_decode_family_C : decodeWord 0b1100001000001111 = .ok (.rnd 2 0x0F) := by decide
theorem test_decode_family_D : decodeWord 0b1101000100100011 = .ok (.drw 1 2 3) := by decide
theorem test_decode_family_E :
    decodeWord 0xE49E = .ok (.skp 4) ∧ decodeWord 0xE4A1 = .ok (.sknp 4) := by decide
theorem test_decode_family_F :
    decodeWord 0xF507 = .ok (.ldVxDT 5) ∧ decodeWord 0xF50A = .ok (.ldVxK 5) ∧
    decodeWord 0xF015 = .ok (.ldDTVx 0) ∧ decodeWord 0xF118 = .ok (.ldSTVx 1) ∧
    decodeWord 0xF21E = .ok (.addI 2) ∧ decodeWord 0xF329 = .ok (.ldF 3) ∧
    decodeWord 0xFA33 = .ok (.ldB 0xA) ∧ decodeWord 0xF255 = .ok (.storeRegs 2) ∧
    decodeWord 0xF265 = .ok (.loadRegs 2) := by decide
/-- The invalid words that 95_test_vectors.md names (T13, T15, T44, T45, T64, T79, T80, T81, R122). -/
theorem test_decode_rejects_by_name :
    decodeWord 0x5121 = .error (.lowNibbleNotZero 0x5121) ∧
    decodeWord 0x912F = .error (.lowNibbleNotZero 0x912F) ∧
    decodeWord 0x8128 = .error (.aluNibble 0x8128) ∧ decodeWord 0x812F = .error (.aluNibble 0x812F) ∧
    decodeWord 0xE39F = .error (.keyByte 0xE39F) ∧ decodeWord 0xF0FF = .error (.transferByte 0xF0FF) ∧
    decodeWord 0xF075 = .error (.transferByte 0xF075) ∧
    decodeWord 0x0123 = .error (.family0 0x0123) ∧ decodeWord 0x0000 = .error (.family0 0x0000) ∧
    decode [0x12] = .error .truncated := by decide

/-! ## One cycle on a small state (95_test_vectors.md, part L2) -/

/-- Whether a result is a next state with a property. -/
def answers (r : Result) (p : State → Bool) : Bool :=
  match r with
  | .next t => p t
  | .fault _ => false
  | .refused _ => false

/-- One cycle on a word at pc. -/
def runWord (w : Nat) (s : State) : Result := cycle (s.withFetchWord 16 w)

/-- Reset with two registers set. -/
def withV (x : Reg) (a : Byte) (y : Reg) (b : Byte) : State := (State.reset.setV x a).setV y b

/-- Another QCFG. -/
def withQ (q : BitVec 7) (s : State) : State := { s with cfg := { s.cfg with qcfg := q } }

theorem test_cls_T46 :
    answers (runWord 0x00E0 (State.reset.setDisplay (.replicate 32 (.replicate 64 true))))
      (fun t => t.display == blankDisplay && t.pc == 0x202) = true := by decide
theorem test_ret_T1 :
    answers (runWord 0x00EE (State.reset.setStack ((Vector.replicate 16 0).set 0 0x346) 1))
      (fun t => t.pc == 0x346 && t.sp == 0) = true := by decide
theorem test_ret_T2 :
    answers (runWord 0x00EE State.reset)
      (fun t => t.out == .stackUnderflow && t.pc == 0x202) = true := by decide
theorem test_jp_T3 : answers (runWord 0x1ABC State.reset) (fun t => t.pc == 0xABC) = true := by
  decide
theorem test_call_T5 :
    answers (runWord 0x2400 (State.reset.setPc 0x208))
      (fun t => t.pc == 0x400 && t.sp == 1 && t.stack[0] == 0x20A) = true := by decide
theorem test_call_T6 :
    answers (runWord 0x2400 (State.reset.setStack (.replicate 16 0) 16))
      (fun t => t.out == .stackOverflow && t.pc == 0x202 && t.sp == 16) = true := by decide
theorem test_seByte_T8_T9 :
    answers (runWord 0x3A42 (State.reset.setV 0xA 0x42)) (fun t => t.pc == 0x204) = true ∧
    answers (runWord 0x3A42 (State.reset.setV 0xA 0x43)) (fun t => t.pc == 0x202) = true := by
  decide
theorem test_sneByte_T10_T11 :
    answers (runWord 0x4A42 (State.reset.setV 0xA 0x42)) (fun t => t.pc == 0x202) = true ∧
    answers (runWord 0x4A42 State.reset) (fun t => t.pc == 0x204) = true := by decide
theorem test_seReg_T12 :
    answers (runWord 0x5120 (withV 1 7 2 7)) (fun t => t.pc == 0x204) = true := by decide
theorem test_sneReg_T14 :
    answers (runWord 0x9120 (withV 1 7 2 8)) (fun t => t.pc == 0x204) = true := by decide
theorem test_jpV0_T16 :
    answers (runWord 0xBFFF (State.reset.setV 0 0xFF)) (fun t => t.pc == 0x10FE) = true := by decide
theorem test_jpV0_T17 :
    answers (runWord 0xB220 (withQ 0b1111110 (withV 0 4 2 0x10))) (fun t => t.pc == 0x230) = true := by
  decide
theorem test_ldByte_T19 :
    answers (runWord 0x6FAB State.reset) (fun t => t.getV VF == 0xAB) = true := by decide
theorem test_addByte_T20 :
    answers (runWord 0x71FF (withV 1 2 VF 0x55))
      (fun t => t.getV 1 == 1 && t.getV VF == 0x55) = true := by decide
theorem test_ldI_T22 : answers (runWord 0xAFFF State.reset) (fun t => t.i == 0xFFF) = true := by
  decide
theorem test_rnd_T23 :
    answers (runWord 0xC30F (State.reset.announceRand 0xA7)) (fun t => t.getV 3 == 7) = true := by
  decide
theorem test_ldReg_T24 :
    answers (runWord 0x8120 (withV 1 1 2 0x33)) (fun t => t.getV 1 == 0x33) = true := by decide
theorem test_or_T25_T26 :
    answers (runWord 0x8121 ((withV 1 0xC 2 0xA).setV VF 5))
      (fun t => t.getV 1 == 0xE && t.getV VF == 0) = true ∧
    answers (runWord 0x8121 (withQ 0b1111000 ((withV 1 0xC 2 0xA).setV VF 5)))
      (fun t => t.getV 1 == 0xE && t.getV VF == 5) = true := by decide
theorem test_and_T27 :
    answers (runWord 0x8122 (withV 1 0xC 2 0xA)) (fun t => t.getV 1 == 8) = true := by decide
theorem test_xor_T28_T29 :
    answers (runWord 0x8123 (withV 1 0xC 2 0xA)) (fun t => t.getV 1 == 6) = true ∧
    answers (runWord 0x8F13 (withV VF 0xF0 1 0x0F)) (fun t => t.getV VF == 0) = true := by decide
theorem test_add_T30 :
    answers (runWord 0x8124 (withV 1 0xFF 2 1))
      (fun t => t.getV 1 == 0 && t.getV VF == 1) = true := by decide
theorem test_add_T33 :
    answers (runWord 0x8F14 (withV VF 0xFF 1 1)) (fun t => t.getV VF == 1) = true := by decide
theorem test_sub_T34_T35 :
    answers (runWord 0x8125 (withV 1 5 2 5))
      (fun t => t.getV 1 == 0 && t.getV VF == 1) = true ∧
    answers (runWord 0x8125 (withV 1 0 2 1))
      (fun t => t.getV 1 == 0xFF && t.getV VF == 0) = true := by decide
theorem test_subn_T36 :
    answers (runWord 0x8127 (withV 1 5 2 7))
      (fun t => t.getV 1 == 2 && t.getV VF == 1) = true := by decide
theorem test_shr_T38_T39 :
    answers (runWord 0x8126 (withV 1 5 2 0xC))
      (fun t => t.getV 1 == 6 && t.getV VF == 0) = true ∧
    answers (runWord 0x8126 (withQ 0b1111101 (withV 1 5 2 0xC)))
      (fun t => t.getV 1 == 2 && t.getV VF == 1) = true := by decide
theorem test_shl_T41_T42 :
    answers (runWord 0x812E (withV 1 0x81 2 0x41))
      (fun t => t.getV 1 == 0x82 && t.getV VF == 0) = true ∧
    answers (runWord 0x812E (withQ 0b1111101 (withV 1 0x81 2 0x41)))
      (fun t => t.getV 1 == 2 && t.getV VF == 1) = true := by decide
theorem test_drw_T52 :
    answers (runWord 0xD011 (((withV 0 0x7C 1 0x45).setI 0x300).memWrite 0x300 0x81))
      (fun t => t.pixel 5 60 && !t.pixel 5 3 && t.getV VF == 0) = true := by decide
theorem test_drw_T53 :
    answers (runWord 0xD012 (withQ 0b1110100
        ((((withV 0 0x3E 1 0x1F).setI 0x300).memWrite 0x300 0xC0).memWrite 0x301 0x80)))
      (fun t => t.pixel 0 62 && t.pixel 31 62 && t.pixel 31 63 && !t.pixel 31 61) = true := by decide
theorem test_skp_T58 :
    answers (runWord 0xE39E ((State.reset.setV 3 0x15).setKeyState 5 true))
      (fun t => t.pc == 0x204) = true := by decide
theorem test_sknp_T60_T61 :
    answers (runWord 0xE3A1 (State.reset.setV 3 5)) (fun t => t.pc == 0x204) = true ∧
    answers (runWord 0xE3A1 ((State.reset.setV 3 5).setKeyState 5 true))
      (fun t => t.pc == 0x202) = true := by decide
theorem test_ldVxK_T62_T63 :
    answers (runWord 0xF50A (State.reset.setV 5 0x99))
      (fun t => t.out == .awaitKeypress && t.pc == 0x200 && t.getV 5 == 0x99) = true ∧
    answers (runWord 0xF50A { State.reset.setV 5 0x99 with frameEdge := some 12 })
      (fun t => t.out == .ok && t.pc == 0x202 && t.getV 5 == 12) = true := by decide
theorem test_ldVxDT_T65 :
    answers (runWord 0xF407 (State.reset.setDT 0x2A)) (fun t => t.getV 4 == 0x2A) = true := by decide
theorem test_ldDTVx_T66 :
    answers (runWord 0xF415 (State.reset.setV 4 0x2A)) (fun t => t.dt == 0x2A && t.st == 0) = true := by
  decide
theorem test_ldSTVx_T67 :
    answers (runWord 0xF418 (State.reset.setV 4 1)) (fun t => t.st == 1 && t.dt == 0) = true := by
  decide
theorem test_addI_T69 :
    answers (runWord 0xF21E ((withV 2 1 VF 0x77).setI 0xFFFF))
      (fun t => t.i == 0 && t.getV VF == 0x77) = true := by decide
theorem test_ldF_T70 :
    answers (runWord 0xF329 (State.reset.setV 3 0x1A)) (fun t => t.i == 0x82) = true := by decide
theorem test_ldB_T71 :
    answers (runWord 0xF033 ((State.reset.setV 0 0x9C).setI 0x300))
      (fun t => t.memRead 0x300 == 1 && t.memRead 0x301 == 5 && t.memRead 0x302 == 6) = true := by
  decide
theorem test_ldB_T72 :
    answers (runWord 0xF033 ((State.reset.setV 0 0xFF).setI 0xFFF))
      (fun t => t.memRead 0xFFF == 2 && t.memRead 0 == 5 && t.memRead 1 == 5) = true := by decide
theorem test_storeRegs_T74 :
    answers (runWord 0xF255 (((withV 0 1 1 2).setV 2 3).setI 0x300))
      (fun t => t.memRead 0x300 == 1 && t.memRead 0x301 == 2 && t.memRead 0x302 == 3 &&
        t.memRead 0x303 == 0 && t.i == 0x303) = true := by decide
theorem test_storeRegs_T76 :
    answers (runWord 0xF155 ((withV 0 0xAA 1 0xBB).setI 0xFFF))
      (fun t => t.memRead 0xFFF == 0xAA && t.memRead 0 == 0xBB && t.i == 0x1001) = true := by decide
theorem test_loadRegs_T77 :
    answers (runWord 0xF265 ((((State.reset.setI 0x300).memWrite 0x300 1).memWrite 0x301 5).memWrite
        0x302 6))
      (fun t => t.getV 0 == 1 && t.getV 1 == 5 && t.getV 2 == 6 && t.i == 0x303) = true := by decide
theorem test_loadRegs_T78 :
    answers (runWord 0xFF65 (withQ 0b0111100 ((State.reset.setI 0x300).memWrite 0x30F 0xEE)))
      (fun t => t.getV VF == 0xEE && t.i == 0x300) = true := by decide
theorem test_invalid_T81 :
    answers (cycle State.reset)
      (fun t => t == { State.reset with pc := 0x202, out := .invalidInstruction }) = true := by decide
theorem test_fetch_masks_T82 :
    answers (runWord 0x6107 (State.reset.setPc 0x10FE))
      (fun t => t.getV 1 == 7 && t.pc == 0x1100) = true := by decide

/-! ## Frame start, memory, reset (F2, F3, F5, R52, D5) -/

/-- A snapshot from its 16 keys. -/
def snapshot (held : List Nat) : KeySnapshot := Vector.ofFn fun k => held.contains k.val

theorem test_frameStart_F2 :
    (frameStart ((State.reset.setST 5).announceKeys (snapshot []))).readTimers = (0, 4) := by decide
theorem test_frameStart_F3 :
    (frameStart { State.reset.announceKeys (snapshot []) with keys := snapshot [3, 7] }).frameEdge =
      some 3 := by decide
theorem test_frameStart_F5 :
    (frameStart (withQ 0b1011100 (State.reset.announceKeys (snapshot [9, 2])))).frameEdge = some 2 := by
  decide
theorem test_font_glyphs_at_reset :
    State.reset.memRead 0x050 = 0xF0 ∧ State.reset.memRead 0x09F = 0x80 ∧
      State.reset.memRead 0x0A0 = 0 := by decide
/-- A byte written back to its reset value leaves no trace in the list. -/
theorem test_memory_is_canonical :
    ((State.reset.memWrite 0x050 1).memWrite 0x050 0xF0).mem = [] := by decide

/-! ## Witnesses: the hypotheses of the statements can be met -/

/-- A state in which a cycle is due, with `LD VA, 0x9C` at pc. -/
def dueState : State := State.reset.withFetchWord 16 0x6A9C

theorem witness_DecodeInvertsEncode : (Instr.jpV0 2 0x220).wellFormed = true := by decide
theorem witness_EncodeInvertsDecode : decodeWord 0xBFFF = .ok (.jpV0 0xF 0xFFF) := by decide
theorem witness_FamiliesSelectOnTheirFields :
    (0x00E0 : Word).toNat / 4096 = 0 ∧ (0x5FF0 : Word).toNat / 4096 = 5 ∧
    (0x9FF0 : Word).toNat / 4096 = 9 ∧ (0x8FFE : Word).toNat / 4096 = 8 ∧
    (0xEFA1 : Word).toNat / 4096 = 14 ∧ (0xFF65 : Word).toNat / 4096 = 15 ∧
    (0xDFFF : Word).toNat / 4096 ∈ [1, 2, 3, 4, 6, 7, 10, 11, 12, 13] ∧
    State.reset.fetchWord = 0x0000 ∧ decodeWord 0x0000 = .error (.family0 0x0000) := by decide
theorem witness_StepRunsDecodedInstruction :
    dueState.halted = false ∧ dueState.inFrame = true ∧
    dueState.cycleInFrame < dueState.cfg.cyclesPerFrame ∧
    decode [dueState.memRead dueState.pc, dueState.memRead (dueState.pc + 1)] =
      .ok (.ldByte 0xA 0x9C, []) := by decide
theorem witness_InvalidWordOnlyAdvancesPc :
    ∀ i, decodeWord State.reset.fetchWord ≠ .ok i := by
  have h : decodeWord State.reset.fetchWord = .error (.family0 0x0000) := by decide
  simp [h]
theorem witness_OutcomesOfInstructions :
    answers (exec (.call 0x400) (State.reset.setStack (.replicate 16 0) 16))
      (fun t => t.out.isError) = true ∧
    answers (exec .ret State.reset) (fun t => t.out.isError) = true ∧
    answers (exec (.ldVxK 5) State.reset) (fun t => t.out.isAwait) = true ∧
    answers (exec (.drw 0 1 1) { State.reset with cycleInFrame := 1 })
      (fun t => t.out.isAwait) = true := by decide
theorem witness_InstructionsWriteOnlyTheirState :
    answers (exec (.addReg VF 1) (withV VF 0xFF 1 1)) (fun t => t.getV VF == 1) = true := by decide
theorem witness_CanonicalMemoriesAreDeterminedByReads :
    Memory.wf Config.conventionalFont [(0x050, 1), (0xFFF, 5)] := by decide
theorem witness_StepBetweenFramesStartsAFrame :
    State.reset.halted = false ∧ State.reset.inFrame = false ∧ State.reset.keysIn = [] ∧
    (State.reset.announceKeys (snapshot [3])).keysIn = [snapshot [3]] ∧
    ({ dueState with cycleInFrame := 10 } : State).cfg.cyclesPerFrame ≤ 10 := by decide
theorem witness_FrameStartReportsTheLowestKeyEdge :
    (frameStart { State.reset.announceKeys (snapshot []) with keys := snapshot [15] }).frameEdge =
      some 15 ∧
    (frameStart (State.reset.announceKeys (snapshot [15]))).frameEdge = none := by decide
theorem witness_OutcomeDecidesWhatFollowsACycle :
    (dueState.halted = false ∧ dueState.inFrame = true ∧
      dueState.cycleInFrame < dueState.cfg.cyclesPerFrame ∧
      answers (cycle dueState) (fun t => t.out == .ok) = true) ∧
    answers (cycle (State.reset.withFetchWord 16 0x0000))
      (fun t => t.out.isError && t.cfg.onError == .halt) = true ∧
    answers (cycle (State.reset.withFetchWord 16 0xF50A)) (fun t => t.out.isAwait) = true ∧
    answers (cycle ({ State.reset with cfg := { Config.defaults with onError := .goOn } }.withFetchWord
        16 0x0000)) (fun t => t.out.isError && t.cfg.onError == .goOn) = true := by decide
theorem witness_HaltedMachineKeepsItsState :
    ({ State.reset with halted := true } : State).halted = true := by decide
theorem witness_FrameIsTheRunOfItsSteps :
    State.reset.cfg.legal ∧ State.reset.halted = false ∧ State.reset.inFrame = false := by decide
theorem witness_EveryStepKeepsTheInvariant :
    Inv dueState ∧ answers (step dueState) (fun t => t.getV 0xA == 0x9C) = true := by
  refine ⟨⟨?_, ?_, ?_, ?_, ?_, ?_, ?_⟩, ?_⟩ <;> decide
theorem witness_LoadedMachineMeetsTheInvariant :
    Config.defaults.legal ∧ ([0x12, 0x00] : List Byte).length ≤ 3584 := by decide
theorem witness_NoStepChangesTheConfiguration : step State.reset = .next (frameStart State.reset) := by
  rfl
theorem witness_ResetLeavesTheStatedValues : ∃ s, dueState.hostReset = State.hostReset s :=
  ⟨dueState, rfl⟩
theorem witness_LoadCopiesTheImage :
    State.reset.running = false ∧
    (List.replicate 3584 (0 : Byte)).length ≤ 3584 ∧ 0 < (List.replicate 3584 (0 : Byte)).length ∧
    (0x1FF : Word).toNat % 4096 < 0x200 ∧
    0x200 + ([0x12] : List Byte).length ≤ (0x201 : Word).toNat % 4096 := by
  refine ⟨rfl, List.length_replicate.le, ?_, by decide, by decide⟩
  rw [List.length_replicate]
  decide
theorem witness_LoadRefusesAnOverlongImage : 3584 < (List.replicate 3585 (0 : Byte)).length := by
  rw [List.length_replicate]
  decide
theorem witness_LoadIsRefusedDuringARun :
    dueState.running = true ∧ (frameStart State.reset).running = true ∧
    ([0x12, 0x00] : List Byte).length ≤ 3584 := by decide
/-- The first step after reset begins the run (R149), and a load is refused from there on (R56, U15). -/
theorem test_load_R56 :
    answers (State.reset.load [0x12, 0x00]) (fun t => t.fetchWord == 0x1200) = true ∧
    (frameStart State.reset).load [0x12, 0x00] = .refused .loadDuringRun :=
  ⟨by decide, rfl⟩
theorem witness_RetPopsTheReturnAddress :
    0 < (State.reset.setStack (.replicate 16 0) 16).sp.val ∧ State.reset.sp.val = 0 := by decide
theorem witness_CallPushesTheReturnAddress :
    (State.reset.setStack (.replicate 16 0) 15).sp.val < 16 ∧
    (State.reset.setStack (.replicate 16 0) 16).sp.val = 16 := by decide
theorem witness_RetUndoesCall :
    (State.reset.setStack (.replicate 16 0) 15).sp.val < 16 ∧
    answers (exec (.call 0x400) (State.reset.setStack (.replicate 16 0) 15))
      (fun t => (t.setPc 0x500).sp == t.sp && (t.setPc 0x500).stack == t.stack) = true := by decide
theorem witness_RegisterSkipsCompareTwoRegisters : (0xF : Nibble) ≠ 0 := by decide
theorem witness_JpV0AddsTheOffsetRegister : (Instr.jpV0 0xF 0xFFF).wellFormed = true := by decide
theorem witness_RndMasksOneDraw :
    (State.reset.announceRand 0xA7).randIn = 0xA7 :: [] ∧ State.reset.randIn = [] := by decide
theorem witness_LogicWritesResultThenClearsVf :
    (0x0E : Byte) = (withV 1 0x0C 2 0x0A).getV 1 ||| (withV 1 0x0C 2 0x0A).getV 2 := by decide
theorem witness_SubtractionWritesDifferenceThenNoBorrow :
    (withV 1 5 2 7).getV 1 = 5 ∧ (withV 1 5 2 7).getV 2 = 7 := by decide
theorem witness_ShiftsWriteResultThenBitOut :
    0x0C = (if State.reset.cfg.qcfg.getLsbD 0 then (withV 1 5 2 0x0C).getV 1
      else (withV 1 5 2 0x0C).getV 2).toNat := by decide
theorem witness_DrwTogglesExactlyTheSprite :
    (State.reset.cfg.qcfg.getLsbD 4 = true → State.reset.cycleInFrame = 0) ∧
    ((withQ 0 { State.reset with cycleInFrame := 3 }).cfg.qcfg.getLsbD 4 = true →
      (withQ 0 { State.reset with cycleInFrame := 3 }).cycleInFrame = 0) := by decide
theorem witness_DrwWaitsForTheNextFrame :
    State.reset.cfg.qcfg.getLsbD 4 = true ∧
    ({ State.reset with cycleInFrame := 1 } : State).cycleInFrame ≠ 0 := by decide
theorem witness_DrawingTwiceRestoresTheDisplay :
    (0 : Reg) ≠ VF ∧ (0xE : Reg) ≠ VF ∧
    (State.reset.cfg.qcfg.getLsbD 4 = true → State.reset.cycleInFrame = 0) := by decide
theorem witness_KeySkipsTestTheSnapshot :
    (5 : Key).val = ((State.reset.setV 3 0x15).getV 3).toNat % 16 := by decide
theorem witness_LdVxKStoresTheEdgeOrWaits :
    ({ State.reset with frameEdge := some 15 } : State).frameEdge = some 15 ∧
    State.reset.frameEdge = none := by decide
theorem witness_BulkLoadUndoesBulkStore :
    answers (exec (.storeRegs 2) (State.reset.setI 0xFFF))
      (fun t => (t.setI 0xFFF).mem == t.mem && (t.setI 0xFFF).cfg == t.cfg &&
        (t.setI 0xFFF).i == (State.reset.setI 0xFFF).i) = true := by decide

end Sys2Proof.Tests
end

section
/-!
SUPPORT. No instruction touches the parameters, the key snapshots, the frame latches or the sequencer's
place (R79), and from that: no step changes the parameters (R11, R36).
-/

namespace Sys2Proof.Machine

/-! ## `FrameKept` composes, and the moves every cycle makes satisfy it -/

theorem FrameKept.trans {s t u : State} (hst : FrameKept s t) (htu : FrameKept t u) :
    FrameKept s u := by
  unfold FrameKept at *
  simp_all only [and_self]

theorem FrameKept.cfg_eq {s t : State} (h : FrameKept s t) : t.cfg = s.cfg := h.1

theorem frameKept_setPc (s : State) (w : Word) : FrameKept s (s.setPc w) := by
  simp [FrameKept]

theorem frameKept_raise (s : State) (o : CycleOutcome) : FrameKept s (s.raise o) := by
  simp [FrameKept]

/-! ## The instructions that branch before they end -/

theorem execRet_next_frameKept (s : State) : ∃ t, execRet s = .next t ∧ FrameKept s t := by
  by_cases h : s.sp.val = 0
  · exact ⟨_, by rw [execRet, s.pop_of_empty h]; rfl, frameKept_raise s _⟩
  · exact ⟨_, by rw [execRet, s.pop_of_pos (by omega)]; rfl, by simp [FrameKept]⟩

theorem execCall_next_frameKept (nnn : Addr) (s : State) :
    ∃ t, execCall nnn s = .next t ∧ FrameKept s t := by
  by_cases h : s.sp.val < 16
  · exact ⟨_, by rw [execCall, s.push_of_lt _ h]; rfl, by simp [FrameKept]⟩
  · exact ⟨_, by rw [execCall, s.push_of_full _ (by omega)]; rfl, frameKept_raise s _⟩

theorem execDrw_next_frameKept (x y : Reg) (n : Nibble) (s : State) :
    ∃ t, execDrw x y n s = .next t ∧ FrameKept s t := by
  by_cases h : drawMustWait s = true
  · exact ⟨_, by rw [execDrw, if_pos h]; rfl, by simp [FrameKept]⟩
  · exact ⟨_, by rw [execDrw, if_neg h]; rfl, by simp [FrameKept]⟩

theorem execLdVxK_next_frameKept (x : Reg) (s : State) :
    ∃ t, execLdVxK x s = .next t ∧ FrameKept s t := by
  cases h : s.keyEdge with
  | some k => exact ⟨_, by rw [execLdVxK, h]; rfl, by simp [FrameKept]⟩
  | none => exact ⟨_, by rw [execLdVxK, h]; rfl, by simp [FrameKept]⟩

/-! ## Every instruction, every cycle, every step -/

/-- Every instruction answers a next state, whatever its outcome (R124), and that state holds the
frame and its parameters as they were (R79). An arm that does not branch ends with `finish` on named
updates, so its next state is read off by `rfl` and the updates' own lemmas say what they keep. -/
theorem exec_next_frameKept (i : Instr) (s : State) : ∃ t, exec i s = .next t ∧ FrameKept s t := by
  cases i with
  | ret => exact execRet_next_frameKept s
  | call nnn => exact execCall_next_frameKept nnn s
  | drw x y n => exact execDrw_next_frameKept x y n s
  | ldVxK x => exact execLdVxK_next_frameKept x s
  | cls | jp _ | jpV0 _ _ | seByte _ _ | sneByte _ _ | seReg _ _ | sneReg _ _ | skp _ | sknp _
  | ldByte _ _ | addByte _ _ | rnd _ _ | ldReg _ _ | orReg _ _ | andReg _ _ | xorReg _ _
  | addReg _ _ | subReg _ _ | subnReg _ _ | shr _ _ | shl _ _
  | ldI _ | addI _ | ldF _ | ldVxDT _ | ldDTVx _ | ldSTVx _ | ldB _ | storeRegs _ | loadRegs _ =>
    exact ⟨_, rfl, by simp [FrameKept]⟩

/-- A cycle keeps the frame and its parameters: the fetch and an invalid word move pc and the outcome
only (R73, R75), and the instruction keeps them. -/
theorem cycle_frameKept {s t : State} (h : cycle s = .next t) : FrameKept s t := by
  have hfetch := frameKept_setPc s (s.pc + 2)
  obtain ⟨i, -, hexec⟩ | ⟨e, -, rfl⟩ := cycle_cases h
  · obtain ⟨u, hu, hkept⟩ := exec_next_frameKept i (s.setPc (s.pc + 2))
    obtain rfl : u = t := Host.Outcome.next.inj (hu.symm.trans hexec)
    exact hfetch.trans hkept
  · exact hfetch.trans (frameKept_raise _ _)

/-- Settles O21: a halted machine keeps its whole state, a cycle keeps the parameters with the rest of
the frame and its end writes latches only, and a frame start writes timers, keys and latches. -/
theorem noStepChangesTheConfiguration : Obligations.NoStepChangesTheConfiguration := by
  intro s t h
  obtain ⟨-, rfl⟩ | ⟨-, -, u, hcycle, rfl⟩ | ⟨-, -, rfl⟩ := step_cases h
  · rfl
  · exact (endCycle_cfg u).trans (cycle_frameKept hcycle).cfg_eq
  · exact frameStart_cfg s

end Sys2Proof.Machine
end

section
/-!
SUPPORT. The invariant of the machine holds from construction on and every step keeps it (R38, R42,
R128, R135, R139); and what construction and `reset()` leave in every state item (R40, R146).
-/

namespace Sys2Proof.Machine

/-! ## An instruction keeps the canonical form of memory -/

theorem exec_frameKept {i : Instr} {s t : State} (h : exec i s = .next t) : FrameKept s t := by
  obtain ⟨u, hu, hkept⟩ := exec_next_frameKept i s
  obtain rfl : u = t := Host.Outcome.next.inj (hu.symm.trans h)
  exact hkept

theorem execRet_mem {s t : State} (h : execRet s = .next t) : t.mem = s.mem := by
  by_cases hsp : s.sp.val = 0
  · rw [execRet, s.pop_of_empty hsp] at h
    cases h; rfl
  · rw [execRet, s.pop_of_pos (by omega)] at h
    cases h; rfl

theorem execCall_mem {nnn : Addr} {s t : State} (h : execCall nnn s = .next t) :
    t.mem = s.mem := by
  by_cases hsp : s.sp.val < 16
  · rw [execCall, s.push_of_lt _ hsp] at h
    cases h; rfl
  · rw [execCall, s.push_of_full _ (by omega)] at h
    cases h; rfl

theorem execDrw_mem {x y : Reg} {n : Nibble} {s t : State} (h : execDrw x y n s = .next t) :
    t.mem = s.mem := by
  unfold execDrw at h
  split at h <;> cases h <;> rfl

theorem execLdVxK_mem {x : Reg} {s t : State} (h : execLdVxK x s = .next t) : t.mem = s.mem := by
  unfold execLdVxK at h
  split at h <;> cases h <;> rfl

/-- An instruction that stores no byte (R48) leaves memory the same list, not only the same reads. -/
theorem exec_mem_of_storedBytes_eq_nil {i : Instr} {s t : State} (hi : storedBytes s i = [])
    (h : exec i s = .next t) : t.mem = s.mem := by
  cases i with
  | ldB x | storeRegs x => simp [storedBytes] at hi
  | ret => exact execRet_mem h
  | call nnn => exact execCall_mem h
  | drw x y n => exact execDrw_mem h
  | ldVxK x => exact execLdVxK_mem h
  | cls | jp _ | jpV0 _ _ | seByte _ _ | sneByte _ _ | seReg _ _ | sneReg _ _ | skp _ | sknp _
  | ldByte _ _ | addByte _ _ | rnd _ _ | ldReg _ _ | orReg _ _ | andReg _ _ | xorReg _ _
  | addReg _ _ | subReg _ _ | subnReg _ _ | shr _ _ | shl _ _
  | ldI _ | addI _ | ldF _ | ldVxDT _ | ldDTVx _ | ldSTVx _ | loadRegs _ =>
    obtain rfl := Host.Outcome.next.inj h
    simp

/-- Every instruction keeps the canonical form: LD B and the bulk store write byte by byte, and no
other instruction stores. -/
theorem exec_wf {i : Instr} {s t : State} (hs : Memory.wf s.cfg.font s.mem)
    (h : exec i s = .next t) : Memory.wf t.cfg.font t.mem := by
  cases i with
  | ldB x =>
    obtain rfl := Host.Outcome.next.inj h
    exact State.memWrite_wf (State.memWrite_wf (State.memWrite_wf hs _ _) _ _) _ _
  | storeRegs x =>
    obtain rfl := Host.Outcome.next.inj h
    exact storeBulk_wf s x hs
  | _ =>
    rw [(exec_frameKept h).cfg_eq, exec_mem_of_storedBytes_eq_nil rfl h]
    exact hs

theorem cycle_wf {s t : State} (hs : Memory.wf s.cfg.font s.mem) (h : cycle s = .next t) :
    Memory.wf t.cfg.font t.mem := by
  obtain ⟨i, -, hexec⟩ | ⟨e, -, rfl⟩ := cycle_cases h
  · exact exec_wf (s := s.setPc (s.pc + 2)) hs hexec
  · exact hs

/-! ## The invariant at construction -/

/-- No key has an edge between a snapshot and itself (R135). -/
theorem edgeDetect_self (onRelease : Bool) (keys : KeySnapshot) :
    edgeDetect onRelease keys keys = none :=
  edgeDetect_eq_none.2 fun k => by cases onRelease <;> simp [hasEdge]

/-- A machine constructed with legal parameters meets the invariant. -/
theorem inv_constructed {p : Params} (hp : p.legal) : Inv (State.constructed p) where
  memory := Memory.wf_nil p.font
  parameters := hp
  budget := Nat.zero_le _
  inFrame := nofun
  halted := nofun
  beforeTheRun _ := ⟨rfl, rfl, rfl⟩
  edge := (edgeDetect_self _ _).symm

/-! ## The invariant along a step -/

theorem FrameKept.inFrame_eq {s t : State} (h : FrameKept s t) : t.inFrame = s.inFrame := by
  obtain ⟨-, -, -, -, -, -, hin, -⟩ := h
  exact hin

theorem inFrame_of_cycleDue {s : State} (h : s.cycleDue = true) : s.inFrame = true :=
  Bool.and_elim_left h

theorem stopsMachine_iff (s : State) :
    stopsMachine s = true ↔ s.cfg.onError = .halt ∧ s.out.isError = true := by
  simp [stopsMachine, and_comm]

/-- Where the machine is not halted, the invariant reads only what `FrameKept` keeps, and memory. -/
theorem Inv.of_frameKept {s t : State} (hs : Inv s) (hhalted : s.halted = false)
    (hkept : FrameKept s t) (hmem : Memory.wf t.cfg.font t.mem) : Inv t := by
  obtain ⟨hcfg, hkeys, hprev, hedge, hcount, hhalt, hin, hrun, -, -⟩ := hkept
  constructor
  case memory => exact hmem
  case parameters => rw [hcfg]; exact hs.parameters
  case budget => rw [hcount, hcfg]; exact hs.budget
  case inFrame => rw [hin, hcount, hcfg, hhalt]; exact hs.inFrame
  case halted => simp [hhalt, hhalted]
  case beforeTheRun => rw [hrun, hin, hcount, hhalt]; exact hs.beforeTheRun
  case edge => rw [hedge, hcfg, hprev, hkeys]; exact hs.edge

/-- The end of a cycle keeps the invariant: inside a frame there was budget for the cycle it counts,
and it halts the machine for an error under ON_ERROR = halt only (R128, R139). -/
theorem inv_endCycle {s : State} (hs : Inv s) (hin : s.inFrame = true) : Inv (endCycle s) := by
  obtain ⟨hbudget, hhalted⟩ := hs.inFrame hin
  constructor
  case memory => exact hs.memory
  case parameters => exact hs.parameters
  case budget => exact hbudget
  case inFrame =>
    intro h
    simp only [endCycle_inFrame, Bool.and_eq_true, Bool.not_eq_true', decide_eq_true_eq] at h
    obtain ⟨⟨-, hstops⟩, hnext⟩ := h
    exact ⟨hnext, by simp [hhalted, hstops]⟩
  case halted => simpa [hhalted] using (stopsMachine_iff s).1
  case beforeTheRun =>
    intro hrun
    obtain ⟨hout, -, -⟩ := hs.beforeTheRun hrun
    simp [hin] at hout
  case edge => exact hs.edge

/-- A frame start keeps the invariant: it counts from 0, and its edge is computed from the two
snapshots it has just latched (R135, R138). -/
theorem inv_frameStart {s : State} (hs : Inv s) (hhalted : s.halted = false) :
    Inv (frameStart s) := by
  have hlegal : 0 < s.cfg.cyclesPerFrame := hs.parameters
  constructor
  case memory => simpa using hs.memory
  case parameters => simpa using hs.parameters
  case budget => simp
  case inFrame => simp [hlegal, hhalted]
  case halted => simp [hhalted]
  case beforeTheRun => simp
  case edge => simp

/-- Settles O19: a halted machine stays as it is; a cycle keeps the invariant, because it leaves the
frame as it was and memory canonical, and so does its end; and so does a frame start. -/
theorem everyStepKeepsTheInvariant : Obligations.EveryStepKeepsTheInvariant := by
  intro s t hs h
  obtain ⟨-, rfl⟩ | ⟨hhalted, hdue, u, hcycle, rfl⟩ | ⟨hhalted, -, rfl⟩ := step_cases h
  · exact hs
  · have hkept := cycle_frameKept hcycle
    have hu : Inv u := hs.of_frameKept hhalted hkept (cycle_wf hs.memory hcycle)
    exact inv_endCycle hu (hkept.inFrame_eq.trans (inFrame_of_cycleDue hdue))
  · exact inv_frameStart hs hhalted

/-- Settles O18: reset is construction with the default parameters, which are legal. -/
theorem invariantHoldsAtReset : Obligations.InvariantHoldsAtReset :=
  inv_constructed (by decide : Config.defaults.legal)

/-! ## The reset contents of memory (R40, R52) -/

/-- Byte k of glyph d stands at 0x050 + 5·d + k. -/
theorem Memory.unlisted_glyph (font : FontData) (d : Fin 16) (k : Fin 5) :
    Memory.unlisted font (0x050 + 5 * d.val + k.val) = font[d][k] := by
  have hd : (0x050 + 5 * d.val + k.val - fontBase) / 5 = d.val := by unfold fontBase; omega
  have hk : (0x050 + 5 * d.val + k.val - fontBase) % 5 = k.val := by unfold fontBase; omega
  rw [Memory.unlisted, dif_pos (by unfold fontBase; omega)]
  simp only [hd, hk, Fin.getElem_fin]

/-- Outside the font an unlisted address reads as 0. -/
theorem Memory.unlisted_of_outside_font (font : FontData) {a : Nat} (h : a < 0x050 ∨ 0x0A0 ≤ a) :
    Memory.unlisted font a = 0 :=
  dif_neg (by unfold fontBase; omega)

/-- The address of a glyph's byte, masked (R43). -/
theorem memIndex_glyph (d : Fin 16) (k : Fin 5) :
    memIndex (0x050 + 5 * BitVec.ofNat 16 d.val + BitVec.ofNat 16 k.val) =
      0x050 + 5 * d.val + k.val := by
  rw [memIndex_eq_mod]
  simp only [BitVec.toNat_add, BitVec.toNat_mul, BitVec.toNat_ofNat, BitVec.reduceToNat]
  omega

/-! ## The state after `reset()` -/

/-- `reset()` lists no address, so memory reads as its reset contents. -/
theorem hostReset_memRead (s : State) (a : Word) :
    s.hostReset.memRead a = Memory.unlisted s.cfg.font (memIndex a) := rfl

theorem hostReset_getV (s : State) (r : Reg) : s.hostReset.getV r = 0 :=
  Vector.getElem_replicate r.isLt

theorem hostReset_stack (s : State) (k : Fin 16) : s.hostReset.stack[k] = 0 :=
  Vector.getElem_replicate k.isLt

theorem hostReset_keys (s : State) (k : Key) : s.hostReset.keys[k] = false :=
  Vector.getElem_replicate k.isLt

theorem hostReset_keysPrev (s : State) (k : Key) : s.hostReset.keysPrev[k] = false :=
  Vector.getElem_replicate k.isLt

theorem hostReset_pixel (s : State) (y : Fin 32) (x : Fin 64) : s.hostReset.pixel y x = false := by
  simp [State.pixel, State.hostReset, State.constructed]

/-- Construction leaves nothing for a `reset()` to change. -/
theorem hostReset_constructed (p : Params) :
    (State.constructed p).hostReset = State.constructed p := rfl

/-- Settles O22: a constructed machine is one that a `reset()` would leave, so the items are read off
the state after `reset()`. -/
theorem resetLeavesTheStatedValues : Obligations.ResetLeavesTheStatedValues := by
  refine ⟨rfl, fun _ => rfl, fun _ => rfl, fun t ht => ?_⟩
  obtain ⟨s, rfl⟩ : ∃ s, t = State.hostReset s := by
    obtain ⟨p, rfl⟩ | hreset := ht
    · exact ⟨_, (hostReset_constructed p).symm⟩
    · exact hreset
  have hglyph (d : Fin 16) (k : Fin 5) :
      s.hostReset.memRead (0x050 + 5 * BitVec.ofNat 16 d.val + BitVec.ofNat 16 k.val) =
        s.cfg.font[d][k] := by
    rw [hostReset_memRead, memIndex_glyph, Memory.unlisted_glyph]
  have hzero (a : Word) (ha : a.toNat % 4096 < 0x050 ∨ 0x0A0 ≤ a.toNat % 4096) :
      s.hostReset.memRead a = 0 := by
    rw [hostReset_memRead, memIndex_eq_mod, Memory.unlisted_of_outside_font _ ha]
  exact ⟨hglyph, hzero, hostReset_getV s, rfl, rfl, rfl, hostReset_stack s, rfl, rfl,
    hostReset_keys s, hostReset_keysPrev s, hostReset_pixel s, rfl, rfl, rfl, rfl⟩

end Sys2Proof.Machine
end

section
/-!
SUPPORT. The statements of 20_memory.md: the fetch as a number (R44, R45, R73), the address mask (R43),
memories as the list of what they read as (R42), a next state from every step, and `load` once the run
has begun (R56, R147).
-/

namespace Sys2Proof.Machine

/-! ## The fetch (R44, R45, R73) -/

/-- The word of two bytes as a number: big-endian (R45, D1). -/
theorem wordOfBytes_toNat (hi lo : Byte) :
    (wordOfBytes hi lo).toNat = 256 * hi.toNat + lo.toNat := by
  rw [wordOfBytes, BitVec.toNat_append, ← Nat.shiftLeft_add_eq_or_of_lt lo.isLt,
    Nat.shiftLeft_eq, Nat.mul_comm]

/-- `MemRead` at an address value is the memory's byte at that value mod 4096 (R43). -/
theorem State.memRead_eq_read_mod (s : State) (a : Word) :
    s.memRead a = Memory.read s.cfg.font s.mem (a.toNat % 4096) := by
  rw [State.memRead, memIndex_eq_mod]

/-- The second fetch address, masked: a wrap of pc mod 2^16 does not show mod 4096 (D2, D3). -/
theorem succ_toNat_mod (pc : Word) : (pc + 1).toNat % 4096 = (pc.toNat + 1) % 4096 := by
  have hone : (1 : Word).toNat = 1 := rfl
  rw [BitVec.toNat_add, hone]
  omega

/-- Settles O6: the word is read off its two bytes, and each byte off its address mod 4096. -/
theorem fetchReadsTwoBytesBigEndian : Obligations.FetchReadsTwoBytesBigEndian := by
  intro s
  refine ⟨?_, BitVec.toNat_add s.pc 2⟩
  rw [State.fetchWord, wordOfBytes_toNat, State.memRead_eq_read_mod, State.memRead_eq_read_mod,
    succ_toNat_mod]

/-! ## The address mask (R43) -/

/-- Masking an address twice is masking it once. -/
theorem memIndex_and_mask (a : Word) : memIndex (a &&& 0xFFF) = memIndex a := by
  simp only [memIndex, BitVec.and_assoc, BitVec.and_self]

/-- Settles O11: the mask is idempotent, and a read after a write compares the masked addresses. -/
theorem maskedAddressDecidesTheByte : Obligations.MaskedAddressDecidesTheByte := by
  intro s a c b
  constructor
  · rw [State.memRead, State.memRead, memIndex_and_mask]
  · rw [State.memRead_memWrite, memIndex_eq_mod, memIndex_eq_mod]

/-! ## A canonical memory is determined by its reads (R42) -/

/-- A byte that is found is listed. -/
theorem Memory.mem_of_find_eq_some {m : Memory} {a : Nat} {b : Byte}
    (h : Memory.find m a = some b) : (a, b) ∈ m := by
  induction m with
  | nil => cases h
  | cons c m ih =>
    obtain ⟨k, v⟩ := c
    rw [Memory.find] at h
    split at h
    · next hk =>
      obtain rfl := Option.some.inj h
      exact hk ▸ List.mem_cons_self
    · exact List.mem_cons_of_mem _ (ih h)

/-- In rising order an address is listed once, so a byte that is listed is found. -/
theorem Memory.find_of_mem {m : Memory} (hm : m.Pairwise (fun c d => c.1 < d.1)) {a : Nat}
    {b : Byte} (h : (a, b) ∈ m) : Memory.find m a = some b := by
  induction m with
  | nil => cases h
  | cons c m ih =>
    obtain ⟨hc, hm⟩ := List.pairwise_cons.1 hm
    obtain rfl | h := List.mem_cons.1 h
    · exact if_pos rfl
    · exact (if_neg (hc _ h).ne).trans (ih hm h)

/-- What a canonical memory lists: the addresses that read as something else than when unlisted, with
what they read as. -/
theorem Memory.mem_iff_read {font : FontData} {m : Memory} (hm : Memory.wf font m) (a : Nat)
    (b : Byte) : (a, b) ∈ m ↔ a < memSize ∧ Memory.read font m a = b ∧ b ≠ Memory.unlisted font a := by
  obtain ⟨hsorted, hcells⟩ := hm
  constructor
  · intro h
    obtain ⟨ha, hb⟩ := hcells _ h
    exact ⟨ha, by rw [Memory.read, Memory.find_of_mem hsorted h], hb⟩
  · rintro ⟨-, hread, hb⟩
    rw [Memory.read] at hread
    split at hread
    · next v hfind => exact Memory.mem_of_find_eq_some (hread ▸ hfind)
    · exact absurd hread.symm hb

/-- Addresses strictly rise along the list, so no cell stands in it twice. -/
theorem Memory.nodup_of_pairwise {m : Memory} (hm : m.Pairwise (fun c d => c.1 < d.1)) : m.Nodup :=
  hm.imp fun hlt heq => hlt.ne (congrArg Prod.fst heq)

/-- Settles O12: the reads decide which cells a canonical memory lists, and rising order
leaves one list of them. -/
theorem canonicalMemoriesAreDeterminedByReads : Obligations.CanonicalMemoriesAreDeterminedByReads := by
  intro font m m' hm hm' hread
  have hmem (c : Host.Cell) : c ∈ m ↔ c ∈ m' := by
    obtain ⟨a, b⟩ := c
    rw [Memory.mem_iff_read hm, Memory.mem_iff_read hm']
    exact and_congr_right fun ha => by rw [hread a ha]
  have hperm : m.Perm m' :=
    (List.perm_ext_iff_of_nodup (Memory.nodup_of_pairwise hm.1)
      (Memory.nodup_of_pairwise hm'.1)).2 hmem
  exact hperm.eq_of_pairwise (fun _ _ _ _ hlt hgt => absurd hlt hgt.asymm) hm.1 hm'.1

/-! ## Every step answers a next state (R43, R73) -/

/-- Every cycle answers a next state: an instruction does whatever its outcome, and so does a word that
is none (R75, R124). -/
theorem cycle_next (s : State) : ∃ t, cycle s = .next t := by
  rw [cycle]
  split
  · next i _ =>
    obtain ⟨t, ht, -⟩ := exec_next_frameKept i s.afterFetch
    exact ⟨t, ht⟩
  · exact ⟨_, rfl⟩

/-- Settles O8: a halted machine and a frame start answer at once, and a cycle that is due answers. -/
theorem everyStepAnswersNext : Obligations.EveryStepAnswersNext := by
  intro s
  rw [step]
  split
  · exact ⟨s, rfl⟩
  · split
    · obtain ⟨t, ht⟩ := cycle_next s
      exact ⟨endCycle t, by rw [issueCycle, ht]⟩
    · exact ⟨frameStart s, rfl⟩

/-! ## load once the run has begun (R56, R147) -/

/-- During a run `load` refuses an image of admissible length as such. -/
theorem State.load_of_running {s : State} {image : List Byte} (hrun : s.running = true)
    (hlen : image.length ≤ progMax) : s.load image = .refused .loadDuringRun := by
  rw [State.load, if_neg (by omega), if_pos hrun]

/-- Before a run `load` stores an image of admissible length. -/
theorem State.load_of_not_running {s : State} {image : List Byte} (hrun : s.running = false)
    (hlen : image.length ≤ progMax) : s.load image = .next (storeImage s 0 image) := by
  rw [State.load, if_neg (by omega), if_neg (by simp [hrun])]

/-- During a run `load` refuses every image. -/
theorem State.load_refused_of_running {s : State} (hrun : s.running = true) (image : List Byte) :
    ∃ r, s.load image = .refused r := by
  obtain ⟨-, h⟩ | ⟨-, -, h⟩ | ⟨-, hnot, -⟩ := s.load_cases image
  · exact ⟨_, h⟩
  · exact ⟨_, h⟩
  · cases hrun.symm.trans hnot

theorem FrameKept.running_eq {s t : State} (h : FrameKept s t) : t.running = s.running := by
  obtain ⟨-, -, -, -, -, -, -, hrun, -⟩ := h
  exact hrun

/-- A machine that stands in a frame has begun its run (R149). -/
theorem Inv.running_of_inFrame {s : State} (hs : Inv s) (hin : s.inFrame = true) :
    s.running = true := by
  by_contra hrun
  obtain ⟨hout, -, -⟩ := hs.beforeTheRun (by simpa using hrun)
  cases hin.symm.trans hout

/-- A machine that has halted has begun its run (R149). -/
theorem Inv.running_of_halted {s : State} (hs : Inv s) (hhalted : s.halted = true) :
    s.running = true := by
  by_contra hrun
  obtain ⟨-, -, hgoing⟩ := hs.beforeTheRun (by simpa using hrun)
  cases hhalted.symm.trans hgoing

/-- After a step the run has begun: a frame start begins it, and where the step is another the run had
begun before, by the invariant or as it was given. -/
theorem running_of_step {s t : State} (hs : Inv s ∨ s.running = true) (h : step s = .next t) :
    t.running = true := by
  obtain ⟨hhalted, rfl⟩ | ⟨-, hdue, u, hcycle, rfl⟩ | ⟨-, -, rfl⟩ := step_cases h
  · exact hs.elim (·.running_of_halted hhalted) id
  · rw [endCycle_running, (cycle_frameKept hcycle).running_eq]
    exact hs.elim (·.running_of_inFrame (inFrame_of_cycleDue hdue)) id
  · exact frameStart_running s

/-- Settles O25: the field `running` is what `load` asks, every step sets or keeps it, and `reset()`
clears it. -/
theorem loadIsRefusedDuringARun : Obligations.LoadIsRefusedDuringARun := by
  refine ⟨fun s image hrun => ?_, fun s t hs h => running_of_step hs h, fun s image hlen => ?_⟩
  · exact ⟨State.load_of_running hrun, State.load_refused_of_running hrun image⟩
  · exact ⟨_, State.load_of_not_running rfl hlen⟩

end Sys2Proof.Machine
end

section
/-!
SUPPORT. The statements of 30_encoding.md about words alone: the decoder and the encoder are inverse to
each other on words that are instructions and on well-formed instructions (R59, R60, R63, R70).
-/

namespace Sys2Proof

/-! ## The fields of the three word forms (R60), one lemma a field, for `simp` -/

section Fields

variable (op n : Nibble) (x y : Reg) (nn : Byte) (nnn : Addr)

@[simp] theorem fieldsOf_wordXYN_op : (fieldsOf (wordXYN op x y n)).op = op :=
  (fieldsOf_wordXYN op x y n).1

@[simp] theorem fieldsOf_wordXYN_x : (fieldsOf (wordXYN op x y n)).x = x :=
  (fieldsOf_wordXYN op x y n).2.1

@[simp] theorem fieldsOf_wordXYN_y : (fieldsOf (wordXYN op x y n)).y = y :=
  (fieldsOf_wordXYN op x y n).2.2.1

@[simp] theorem fieldsOf_wordXYN_n : (fieldsOf (wordXYN op x y n)).n = n :=
  (fieldsOf_wordXYN op x y n).2.2.2

@[simp] theorem fieldsOf_wordXNN_op : (fieldsOf (wordXNN op x nn)).op = op :=
  (fieldsOf_wordXNN op x nn).1

@[simp] theorem fieldsOf_wordXNN_x : (fieldsOf (wordXNN op x nn)).x = x :=
  (fieldsOf_wordXNN op x nn).2.1

@[simp] theorem fieldsOf_wordXNN_nn : (fieldsOf (wordXNN op x nn)).nn = nn :=
  (fieldsOf_wordXNN op x nn).2.2

@[simp] theorem fieldsOf_wordNNN_op : (fieldsOf (wordNNN op nnn)).op = op :=
  (fieldsOf_wordNNN op nnn).1

@[simp] theorem fieldsOf_wordNNN_nnn : (fieldsOf (wordNNN op nnn)).nnn = nnn :=
  (fieldsOf_wordNNN op nnn).2.1

@[simp] theorem fieldsOf_wordNNN_x : (fieldsOf (wordNNN op nnn)).x = addrReg nnn :=
  (fieldsOf_wordNNN op nnn).2.2

end Fields

/-! ## Decoding what `encode` writes (R63) -/

/-- The word of a well-formed instruction decodes to it: the dispatch of R74 reads the opcode and the
selector that `encode` wrote, and then the operands. Only `JP V0, addr` needs well-formedness, since its
register is read out of its address (R88). -/
theorem decodeWord_encode {i : Instr} (hi : i.wellFormed = true) :
    decodeWord (encode i) = .ok i := by
  cases i with
  | cls | ret => rfl
  | jpV0 x nnn =>
    obtain rfl : x = addrReg nnn := of_decide_eq_true hi
    simp [encode, decodeWord, select]
  | jp _ | call _ | ldI _ | seByte _ _ | sneByte _ _ | ldByte _ _ | addByte _ _ | rnd _ _
  | seReg _ _ | sneReg _ _ | drw _ _ _ => simp [encode, decodeWord, select]
  | ldReg _ _ | orReg _ _ | andReg _ _ | xorReg _ _ | addReg _ _ | subReg _ _ | shr _ _
  | subnReg _ _ | shl _ _ => simp [encode, decodeWord, select, selectAlu]
  | skp _ | sknp _ => simp [encode, decodeWord, select, selectKey]
  | ldVxDT _ | ldVxK _ | ldDTVx _ | ldSTVx _ | addI _ | ldF _ | ldB _ | storeRegs _ | loadRegs _ =>
    simp [encode, decodeWord, select, selectTransfer]

/-- The decoder on bytes takes the two that `encodeBytes` lays out as the word they came from (R45). -/
theorem decode_encodeBytes_append (i : Instr) (rest : List Byte) :
    decode (encodeBytes i ++ rest) = (decodeWord (encode i)).map fun j => (j, rest) := by
  simp only [encodeBytes, List.cons_append, List.nil_append, decode, wordOfBytes_highByte_lowByte]

/-- Settles O2: the two bytes are put together to the word of the instruction, which decodes to it. -/
theorem decodeInvertsEncode : Obligations.DecodeInvertsEncode := by
  intro i rest hi
  rw [decode_encodeBytes_append, decodeWord_encode hi]
  rfl

/-! ## A word from its opcode and its other fields (R60) -/

section FromFields

variable {w : Word} {op : Nibble}

theorem wordXYN_of_op (hop : (fieldsOf w).op = op) :
    wordXYN op (fieldsOf w).x (fieldsOf w).y (fieldsOf w).n = w :=
  hop ▸ wordXYN_fieldsOf w

theorem wordXNN_of_op (hop : (fieldsOf w).op = op) :
    wordXNN op (fieldsOf w).x (fieldsOf w).nn = w :=
  hop ▸ wordXNN_fieldsOf w

theorem wordNNN_of_op (hop : (fieldsOf w).op = op) : wordNNN op (fieldsOf w).nnn = w :=
  hop ▸ wordNNN_fieldsOf w

theorem wordXYN_of_op_n {n : Nibble} (hop : (fieldsOf w).op = op) (hn : (fieldsOf w).n = n) :
    wordXYN op (fieldsOf w).x (fieldsOf w).y n = w :=
  hn ▸ wordXYN_of_op hop

theorem wordXNN_of_op_nn {nn : Byte} (hop : (fieldsOf w).op = op) (hnn : (fieldsOf w).nn = nn) :
    wordXNN op (fieldsOf w).x nn = w :=
  hnn ▸ wordXNN_of_op hop

/-- The field `x` of a word is the high nibble of its field `nnn` (R88). -/
theorem fieldsOf_x (w : Word) : (fieldsOf w).x = addrReg (fieldsOf w).nnn := by
  have hx := fieldsOf_wordNNN_x (fieldsOf w).op (fieldsOf w).nnn
  rwa [wordNNN_fieldsOf] at hx

end FromFields

/-! ## Encoding what the decoder answers (R70) -/

/-- Every instruction that the answer `r` gives is well formed and is encoded by `w`. It is what O3 says
of `decodeWord w`, as a predicate on answers, so that it can be followed along a chain of tests. -/
def EncodedBy (w : Word) (r : Except DecodeError Instr) : Prop :=
  ∀ i, r = .ok i → i.wellFormed = true ∧ encode i = w

section EncodedBy

variable {w : Word} {i : Instr} {e : DecodeError}

theorem EncodedBy.ok (hi : i.wellFormed = true) (hw : encode i = w) : EncodedBy w (.ok i) := by
  rintro j ⟨⟩
  exact ⟨hi, hw⟩

theorem EncodedBy.error : EncodedBy w (.error e) := nofun

theorem EncodedBy.ite {c : Prop} [Decidable c] {a b : Except DecodeError Instr}
    (ha : c → EncodedBy w a) (hb : ¬c → EncodedBy w b) : EncodedBy w (if c then a else b) := by
  split
  · exact ha ‹_›
  · exact hb ‹_›

theorem encodedBy_selectFamily0 (w : Word) : EncodedBy w (selectFamily0 w) :=
  .ite (fun hw => .ok rfl hw.symm) fun _ =>
  .ite (fun hw => .ok rfl hw.symm) fun _ => .error

theorem encodedBy_selectAlu (hop : (fieldsOf w).op = 0x8) :
    EncodedBy w (selectAlu w (fieldsOf w)) := by
  unfold selectAlu
  repeat refine .ite (fun hn => .ok rfl (wordXYN_of_op_n hop hn)) fun _ => ?_
  exact .error

theorem encodedBy_selectKey (hop : (fieldsOf w).op = 0xE) :
    EncodedBy w (selectKey w (fieldsOf w)) := by
  unfold selectKey
  repeat refine .ite (fun hnn => .ok rfl (wordXNN_of_op_nn hop hnn)) fun _ => ?_
  exact .error

theorem encodedBy_selectTransfer (hop : (fieldsOf w).op = 0xF) :
    EncodedBy w (selectTransfer w (fieldsOf w)) := by
  unfold selectTransfer
  repeat refine .ite (fun hnn => .ok rfl (wordXNN_of_op_nn hop hnn)) fun _ => ?_
  exact .error

/-- The dispatch of R74, family by family. -/
theorem encodedBy_decodeWord (w : Word) : EncodedBy w (decodeWord w) := by
  unfold decodeWord select
  refine .ite (fun _ => encodedBy_selectFamily0 w) fun h0 => ?_
  refine .ite (fun hop => .ok rfl (wordNNN_of_op hop)) fun h1 => ?_
  refine .ite (fun hop => .ok rfl (wordNNN_of_op hop)) fun h2 => ?_
  refine .ite (fun hop => .ok rfl (wordXNN_of_op hop)) fun h3 => ?_
  refine .ite (fun hop => .ok rfl (wordXNN_of_op hop)) fun h4 => ?_
  refine .ite (fun hop => .ite (fun hn => .ok rfl (wordXYN_of_op_n hop hn)) fun _ => .error)
    fun h5 => ?_
  refine .ite (fun hop => .ok rfl (wordXNN_of_op hop)) fun h6 => ?_
  refine .ite (fun hop => .ok rfl (wordXNN_of_op hop)) fun h7 => ?_
  refine .ite encodedBy_selectAlu fun h8 => ?_
  refine .ite (fun hop => .ite (fun hn => .ok rfl (wordXYN_of_op_n hop hn)) fun _ => .error)
    fun h9 => ?_
  refine .ite (fun hop => .ok rfl (wordNNN_of_op hop)) fun hA => ?_
  refine .ite (fun hop => .ok (decide_eq_true (fieldsOf_x w)) (wordNNN_of_op hop)) fun hB => ?_
  refine .ite (fun hop => .ok rfl (wordXNN_of_op hop)) fun hC => ?_
  refine .ite (fun hop => .ok rfl (wordXYN_of_op hop)) fun hD => ?_
  refine .ite encodedBy_selectKey fun hE => ?_
  have hop : (fieldsOf w).op = 0xF := by bv_omega
  exact encodedBy_selectTransfer hop

/-- Settles O3: the dispatch, followed test by test, answers only what the word encodes. -/
theorem encodeInvertsDecode : Obligations.EncodeInvertsDecode := encodedBy_decodeWord

end EncodedBy

/-! ## One word of every family (R63) -/

/-- Settles O1: each word is closed, so the decoder is run on it. -/
theorem specWordsDecode : Obligations.SpecWordsDecode := by
  unfold Obligations.SpecWordsDecode
  decide

end Sys2Proof
end

section
/-!
SUPPORT. Which words are instructions, by the digits of the word, and what a cycle does with a word that
is none (R64 to R68, R75).
-/

namespace Sys2Proof

/-! ## The fields that select, as digits of the word (R60) -/

theorem fieldsOf_op (w : Word) : (fieldsOf w).op = BitVec.ofNat 4 (w.toNat / 4096) := by
  obtain ⟨hop, -⟩ := fieldsOf_toNat w
  rw [← hop, BitVec.ofNat_toNat, BitVec.setWidth_eq]

theorem fieldsOf_n_toNat (w : Word) : (fieldsOf w).n.toNat = w.toNat % 16 := by
  obtain ⟨-, -, -, hn, -⟩ := fieldsOf_toNat w
  exact hn

theorem fieldsOf_nn_toNat (w : Word) : (fieldsOf w).nn.toNat = w.toNat % 256 := by
  obtain ⟨-, -, -, -, hnn, -⟩ := fieldsOf_toNat w
  exact hnn

/-! ## A chain of tests answers an instruction when one of its tests holds -/

theorem exists_ite_ok_iff {c : Prop} [Decidable c] (i : Instr) (r : Except DecodeError Instr) :
    (∃ j, (if c then .ok i else r) = .ok j) ↔ c ∨ ∃ j, r = .ok j := by
  by_cases hc : c <;> simp [hc]

theorem exists_selectFamily0_iff (w : Word) :
    (∃ i, selectFamily0 w = .ok i) ↔ w = 0x00E0 ∨ w = 0x00EE := by
  simp [selectFamily0, exists_ite_ok_iff]

theorem exists_selectAlu_iff (w : Word) (f : Fields) :
    (∃ i, selectAlu w f = .ok i) ↔ f.n.toNat ∈ [0, 1, 2, 3, 4, 5, 6, 7, 14] := by
  simp [selectAlu, exists_ite_ok_iff, ← BitVec.toNat_inj]

theorem exists_selectKey_iff (w : Word) (f : Fields) :
    (∃ i, selectKey w f = .ok i) ↔ f.nn.toNat ∈ [0x9E, 0xA1] := by
  simp [selectKey, exists_ite_ok_iff, ← BitVec.toNat_inj]

theorem exists_selectTransfer_iff (w : Word) (f : Fields) :
    (∃ i, selectTransfer w f = .ok i) ↔
      f.nn.toNat ∈ [0x07, 0x0A, 0x15, 0x18, 0x1E, 0x29, 0x33, 0x55, 0x65] := by
  simp [selectTransfer, exists_ite_ok_iff, ← BitVec.toNat_inj]

/-! ## Which words of a family are instructions (R64 to R68) -/

section Families

variable {w : Word}

theorem decodeWord_family0_iff (h : w.toNat / 4096 = 0) :
    (∃ i, decodeWord w = .ok i) ↔ w = 0x00E0 ∨ w = 0x00EE := by
  have hselect : decodeWord w = selectFamily0 w := by simp [decodeWord, select, fieldsOf_op, h]
  rw [hselect, exists_selectFamily0_iff]

/-- The families of the two register skips ask for a low nibble of zero (R65). -/
theorem decodeWord_families5and9_iff (h : w.toNat / 4096 = 5 ∨ w.toNat / 4096 = 9) :
    (∃ i, decodeWord w = .ok i) ↔ w.toNat % 16 = 0 := by
  rw [← fieldsOf_n_toNat]
  obtain h | h := h <;>
    simp [decodeWord, select, fieldsOf_op, h, exists_ite_ok_iff, ← BitVec.toNat_inj]

theorem decodeWord_family8_iff (h : w.toNat / 4096 = 8) :
    (∃ i, decodeWord w = .ok i) ↔ w.toNat % 16 ∈ [0, 1, 2, 3, 4, 5, 6, 7, 14] := by
  have hselect : decodeWord w = selectAlu w (fieldsOf w) := by
    simp [decodeWord, select, fieldsOf_op, h]
  rw [hselect, exists_selectAlu_iff, fieldsOf_n_toNat]

theorem decodeWord_familyE_iff (h : w.toNat / 4096 = 14) :
    (∃ i, decodeWord w = .ok i) ↔ w.toNat % 256 ∈ [0x9E, 0xA1] := by
  have hselect : decodeWord w = selectKey w (fieldsOf w) := by
    simp [decodeWord, select, fieldsOf_op, h]
  rw [hselect, exists_selectKey_iff, fieldsOf_nn_toNat]

theorem decodeWord_familyF_iff (h : w.toNat / 4096 = 15) :
    (∃ i, decodeWord w = .ok i) ↔
      w.toNat % 256 ∈ [0x07, 0x0A, 0x15, 0x18, 0x1E, 0x29, 0x33, 0x55, 0x65] := by
  have hselect : decodeWord w = selectTransfer w (fieldsOf w) := by
    simp [decodeWord, select, fieldsOf_op, h]
  rw [hselect, exists_selectTransfer_iff, fieldsOf_nn_toNat]

/-- In the other families every word is an instruction: the dispatch asks nothing more (R68). -/
theorem decodeWord_of_total_family
    (h : w.toNat / 4096 ∈ [1, 2, 3, 4, 6, 7, 10, 11, 12, 13]) : ∃ i, decodeWord w = .ok i := by
  simp only [List.mem_cons, List.not_mem_nil, or_false] at h
  obtain h | h | h | h | h | h | h | h | h | h := h <;>
    simp [decodeWord, select, fieldsOf_op, h]

end Families

end Sys2Proof

namespace Sys2Proof.Machine

/-- A cycle on a word that is no instruction ends with InvalidInstruction (R75). -/
theorem cycle_of_not_instruction {s : State} (h : ¬∃ i, decodeWord s.fetchWord = .ok i) :
    ∃ t, cycle s = .next t ∧ t.out = .invalidInstruction := by
  obtain ⟨t, ht⟩ := cycle_next s
  obtain ⟨i, hi, -⟩ | ⟨-, -, rfl⟩ := cycle_cases ht
  · exact absurd ⟨i, hi⟩ h
  · exact ⟨_, ht, rfl⟩

/-- Settles O4: each family's test, read off the digits of the word, and the cycle of a word that fails
it. -/
theorem familiesSelectOnTheirFields : Obligations.FamiliesSelectOnTheirFields := by
  refine ⟨rfl, rfl, fun w => ⟨decodeWord_family0_iff, decodeWord_families5and9_iff,
    decodeWord_family8_iff, decodeWord_familyE_iff, decodeWord_familyF_iff,
    decodeWord_of_total_family, ?_⟩⟩
  rintro hnone s rfl
  exact cycle_of_not_instruction hnone

end Sys2Proof.Machine
end

section
/-!
SUPPORT. What an instruction's outcome is and when, what each instruction leaves unchanged, and from
that what a cycle and a step do with the word at pc (R72 to R80, R123, R126, R139).
-/

namespace Sys2Proof.Machine

/-! ## What the instructions that branch can do, said once -/

section Branching

variable {s t : State}

/-- RET: the stack is empty and it ends with StackUnderflow, or it pops into pc (R81). -/
theorem execRet_cases (h : execRet s = .next t) :
    (s.sp.val = 0 ∧ t = s.raise .stackUnderflow) ∨
      ∃ (w : Word) (p : Fin 17), 0 < s.sp.val ∧ t = ((s.setStack s.stack p).setPc w).raise .ok := by
  by_cases hsp : s.sp.val = 0
  · rw [execRet, s.pop_of_empty hsp] at h
    exact .inl ⟨hsp, (Host.Outcome.next.inj h).symm⟩
  · rw [execRet, s.pop_of_pos (by omega)] at h
    exact .inr ⟨_, _, by omega, (Host.Outcome.next.inj h).symm⟩

/-- CALL: the stack is full and it ends with StackOverflow, or it writes the entry at SP and jumps
(R83). -/
theorem execCall_cases {nnn : Addr} (h : execCall nnn s = .next t) :
    (s.sp.val = 16 ∧ t = s.raise .stackOverflow) ∨
      ∃ (hsp : s.sp.val < 16) (p : Fin 17),
        t = ((s.setStack (s.stack.set s.sp.val s.pc) p).setPc (zextAddr nnn)).raise .ok := by
  by_cases hsp : s.sp.val < 16
  · rw [execCall, s.push_of_lt _ hsp] at h
    exact .inr ⟨hsp, _, (Host.Outcome.next.inj h).symm⟩
  · rw [execCall, s.push_of_full _ (by omega)] at h
    exact .inl ⟨by omega, (Host.Outcome.next.inj h).symm⟩

/-- DRW: it rewinds and waits, or it writes the display and VF (R105). -/
theorem execDrw_cases {x y : Reg} {n : Nibble} (h : execDrw x y n s = .next t) :
    (drawMustWait s = true ∧ t = (s.setPc (s.pc - 2)).raise .awaitRefresh) ∨
      ∃ (d : Display) (f : Byte), drawMustWait s = false ∧
        t = ((s.setDisplay d).setV VF f).raise .ok := by
  unfold execDrw at h
  split at h
  · exact .inl ⟨‹_›, (Host.Outcome.next.inj h).symm⟩
  · next hready => exact .inr ⟨_, _, by simpa using hready, (Host.Outcome.next.inj h).symm⟩

/-- LD Vx, K: the frame has no edge and it rewinds and waits, or it writes Vx (R113). -/
theorem execLdVxK_cases {x : Reg} (h : execLdVxK x s = .next t) :
    (s.frameEdge = none ∧ t = (s.setPc (s.pc - 2)).raise .awaitKeypress) ∨
      ∃ k : Key, s.frameEdge = some k ∧ t = (s.setV x (BitVec.ofNat 8 k.val)).raise .ok := by
  unfold execLdVxK at h
  split at h
  · exact .inr ⟨_, ‹_›, (Host.Outcome.next.inj h).symm⟩
  · exact .inl ⟨‹_›, (Host.Outcome.next.inj h).symm⟩

/-- DRW waits exactly under QCFG bit 4, after the first cycle of a frame (R105, R136). -/
theorem drawMustWait_iff (s : State) :
    drawMustWait s = true ↔ s.cfg.qcfg.getLsbD 4 = true ∧ s.cycleInFrame ≠ 0 := by
  simp [drawMustWait, displayWait, State.refreshReady]

end Branching

/-! ## When an instruction does not complete (R80, R123) -/

/-- `Stops s i t`: from `s` the instruction `i` does not complete, and ends in `t`. CALL and RET leave
pc at its post-fetch value (R81, R83); the two waits rewind it (R78). -/
inductive Stops (s : State) : Instr → State → Prop
  | call (nnn : Addr) (hfull : s.sp.val = 16) : Stops s (.call nnn) (s.raise .stackOverflow)
  | ret (hempty : s.sp.val = 0) : Stops s .ret (s.raise .stackUnderflow)
  | ldVxK (x : Reg) (hnone : s.frameEdge = none) :
    Stops s (.ldVxK x) ((s.setPc (s.pc - 2)).raise .awaitKeypress)
  | drw (x y : Reg) (n : Nibble) (hwait : drawMustWait s = true) :
    Stops s (.drw x y n) ((s.setPc (s.pc - 2)).raise .awaitRefresh)

/-- An instruction stops, or nothing makes it stop and its outcome is Ok. -/
theorem exec_stops_or_ok {i : Instr} {s t : State} (h : exec i s = .next t) :
    Stops s i t ∨ (t.out = .ok ∧ ∀ u, ¬Stops s i u) := by
  cases i with
  | call nnn =>
    obtain ⟨hfull, rfl⟩ | ⟨hlt, p, rfl⟩ := execCall_cases h
    · exact .inl (.call nnn hfull)
    · exact .inr ⟨rfl, fun u hu => by cases hu; omega⟩
  | ret =>
    obtain ⟨hempty, rfl⟩ | ⟨w, p, hpos, rfl⟩ := execRet_cases h
    · exact .inl (.ret hempty)
    · exact .inr ⟨rfl, fun u hu => by cases hu; omega⟩
  | ldVxK x =>
    obtain ⟨hnone, rfl⟩ | ⟨k, hsome, rfl⟩ := execLdVxK_cases h
    · exact .inl (.ldVxK x hnone)
    · exact .inr ⟨rfl, fun u hu => by
        cases hu with | ldVxK _ hnone => cases hsome.symm.trans hnone⟩
  | drw x y n =>
    obtain ⟨hwait, rfl⟩ | ⟨d, f, hready, rfl⟩ := execDrw_cases h
    · exact .inl (.drw x y n hwait)
    · exact .inr ⟨rfl, fun u hu => by
        cases hu with | drw _ _ _ hwait => cases hready.symm.trans hwait⟩
  | _ =>
    obtain rfl := Host.Outcome.next.inj h
    exact .inr ⟨rfl, fun u hu => by cases hu⟩

/-- Settles O9: an instruction that stops does so in one of four ways, each with its own outcome; one
that does not stop ends with Ok. -/
theorem outcomesOfInstructions : Obligations.OutcomesOfInstructions := by
  intro i s t h
  rw [← drawMustWait_iff]
  obtain hstops | ⟨hok, hnot⟩ := exec_stops_or_ok h
  · cases hstops with
    | call nnn hfull => simp [hfull, CycleOutcome.isAwait, State.raise]
    | ret hempty => simp [hempty, CycleOutcome.isAwait, State.raise]
    | ldVxK x hnone => simp [hnone, CycleOutcome.isError, State.raise, State.setPc]
    | drw x y n hwait => simp [hwait, CycleOutcome.isError, State.raise, State.setPc]
  · have hcall : ¬((∃ nnn, i = .call nnn) ∧ s.sp.val = 16) := by
      rintro ⟨⟨nnn, rfl⟩, hfull⟩
      exact hnot _ (.call nnn hfull)
    have hret : ¬(i = .ret ∧ s.sp.val = 0) := by
      rintro ⟨rfl, hempty⟩
      exact hnot _ (.ret hempty)
    have hkey : ¬((∃ x, i = .ldVxK x) ∧ s.frameEdge = none) := by
      rintro ⟨⟨x, rfl⟩, hnone⟩
      exact hnot _ (.ldVxK x hnone)
    have hdrw : ¬((∃ x y n, i = .drw x y n) ∧ drawMustWait s = true) := by
      rintro ⟨⟨x, y, n, rfl⟩, hwait⟩
      exact hnot _ (.drw x y n hwait)
    simp only [hok, hcall, hret, hkey, hdrw]
    simp [CycleOutcome.isError, CycleOutcome.isAwait]

/-! ## What an instruction leaves unchanged (R79) -/

section Writes

variable {i : Instr} {s t : State}

/-- An instruction that ends with another outcome than Ok has changed nothing but pc (R80, R126). -/
theorem exec_eq_of_out_ne_ok (h : exec i s = .next t) (hout : t.out ≠ .ok) :
    t = { s with pc := t.pc, out := t.out } := by
  obtain hstops | ⟨hok, -⟩ := exec_stops_or_ok h
  · cases hstops <;> rfl
  · exact absurd hok hout

/-- The general registers an instruction may write (R23, R24). -/
theorem exec_regsKept (h : exec i s = .next t) : RegsKept (writesReg s.cfg.qcfg i) s t := by
  intro r hr
  cases i with
  | call nnn => obtain ⟨-, rfl⟩ | ⟨-, p, rfl⟩ := execCall_cases h <;> rfl
  | ret => obtain ⟨-, rfl⟩ | ⟨w, p, -, rfl⟩ := execRet_cases h <;> rfl
  | ldVxK x =>
    have hx : r ≠ x := hr
    obtain ⟨-, rfl⟩ | ⟨k, -, rfl⟩ := execLdVxK_cases h <;> simp [hx]
  | drw x y n =>
    have hf : r ≠ VF := hr
    obtain ⟨-, rfl⟩ | ⟨d, f, -, rfl⟩ := execDrw_cases h <;> simp [hf]
  | ldByte x _ | addByte x _ | rnd x _ | ldReg x _ | ldVxDT x =>
    obtain rfl := Host.Outcome.next.inj h
    have hx : r ≠ x := hr
    simp [hx]
  | orReg x _ | andReg x _ | xorReg x _ =>
    obtain rfl := Host.Outcome.next.inj h
    obtain ⟨hx, hclear⟩ := not_or.1 hr
    have hkept : ¬(logicOpsClearVf s.cfg.qcfg = true ∧ r = VF) := hclear
    simp [hx, hkept]
  | addReg x _ | subReg x _ | subnReg x _ | shr x _ | shl x _ =>
    obtain rfl := Host.Outcome.next.inj h
    obtain ⟨hx, hf⟩ := not_or.1 hr
    simp [hx, hf]
  | loadRegs x =>
    obtain rfl := Host.Outcome.next.inj h
    have hx : ¬r ≤ x := hr
    simp [loadBulk_getV, hx]
  | _ =>
    obtain rfl := Host.Outcome.next.inj h
    simp

/-- The instructions that may write I (R27). -/
theorem exec_i_of_not_writesI (h : exec i s = .next t) (hi : ¬writesI s.cfg.qcfg i) : t.i = s.i := by
  cases i with
  | call nnn => obtain ⟨-, rfl⟩ | ⟨-, p, rfl⟩ := execCall_cases h <;> rfl
  | ret => obtain ⟨-, rfl⟩ | ⟨w, p, -, rfl⟩ := execRet_cases h <;> rfl
  | ldVxK x => obtain ⟨-, rfl⟩ | ⟨k, -, rfl⟩ := execLdVxK_cases h <;> rfl
  | drw x y n => obtain ⟨-, rfl⟩ | ⟨d, f, -, rfl⟩ := execDrw_cases h <;> rfl
  | ldI _ | addI _ | ldF _ => simp [writesI] at hi
  | storeRegs x | loadRegs x =>
    obtain rfl := Host.Outcome.next.inj h
    have hbit : indexIncrementOnBulkTransfer s.cfg.qcfg = false := by
      simpa [writesI, indexIncrementOnBulkTransfer] using hi
    simp [bulkIndex, hbit]
  | _ =>
    obtain rfl := Host.Outcome.next.inj h
    simp

/-- Where an instruction may store (R48). -/
theorem exec_memKeptOutside (h : exec i s = .next t) : MemKeptOutside (storedBytes s i) s t := by
  intro a ha
  cases i with
  | ldB x =>
    obtain rfl := Host.Outcome.next.inj h
    have hmiss : memIndex a ≠ memIndex (indexed s 0) ∧ memIndex a ≠ memIndex (indexed s 1) ∧
        memIndex a ≠ memIndex (indexed s 2) := by simpa [storedBytes] using ha
    simp [hmiss]
  | storeRegs x =>
    obtain rfl := Host.Outcome.next.inj h
    refine storeBulk_memRead_miss s x a fun k hk => ha _ ?_
    exact List.mem_map_of_mem (List.mem_range.2 (Nat.lt_succ_of_le hk))
  | _ =>
    rw [State.memRead, exec_mem_of_storedBytes_eq_nil rfl h, (exec_frameKept h).cfg_eq]
    rfl

/-- The instructions that may move pc (R26). -/
theorem exec_pc_of_not_movesPc (h : exec i s = .next t) (hi : ¬movesPc i) : t.pc = s.pc := by
  cases i with
  | jp _ | call _ | ret | jpV0 _ _ | seByte _ _ | sneByte _ _ | seReg _ _ | sneReg _ _ | skp _
  | sknp _ | ldVxK _ | drw _ _ _ => exact absurd trivial hi
  | _ =>
    obtain rfl := Host.Outcome.next.inj h
    simp

/-- The parts of the state that few instructions write, each with those that may: the stack (R29), the
timers (R31), the display (R34) and the random draws (R16). -/
structure DevicesKept (i : Instr) (s t : State) : Prop where
  stack : (∀ nnn, i ≠ .call nnn) → t.stack = s.stack
  entry : ∀ k : Fin 16, k.val ≠ s.sp.val → t.stack[k] = s.stack[k]
  sp : (∀ nnn, i ≠ .call nnn) → i ≠ .ret → t.sp = s.sp
  dt : (∀ x, i ≠ .ldDTVx x) → t.dt = s.dt
  st : (∀ x, i ≠ .ldSTVx x) → t.st = s.st
  display : (∀ x y n, i ≠ .drw x y n) → i ≠ .cls → DisplayKept s t
  draws : (∀ x nn, i ≠ .rnd x nn) → DrawsKept s t

theorem exec_devicesKept (h : exec i s = .next t) : DevicesKept i s t := by
  cases i with
  | call nnn =>
    obtain ⟨-, rfl⟩ | ⟨hlt, p, rfl⟩ := execCall_cases h
    · constructor <;> simp [DisplayKept, DrawsKept]
    · constructor <;> simp +contextual [DisplayKept, DrawsKept, eq_comm]
  | ret =>
    obtain ⟨-, rfl⟩ | ⟨w, p, -, rfl⟩ := execRet_cases h <;>
      constructor <;> simp [DisplayKept, DrawsKept]
  | ldVxK x =>
    obtain ⟨-, rfl⟩ | ⟨k, -, rfl⟩ := execLdVxK_cases h <;>
      constructor <;> simp [DisplayKept, DrawsKept]
  | drw x y n =>
    obtain ⟨-, rfl⟩ | ⟨d, f, -, rfl⟩ := execDrw_cases h <;>
      constructor <;> simp [DisplayKept, DrawsKept]
  | _ =>
    obtain rfl := Host.Outcome.next.inj h
    constructor <;> simp [DisplayKept, DrawsKept]

end Writes

/-- Settles O10: part by part of the state, what each instruction's rule writes. -/
theorem instructionsWriteOnlyTheirState : Obligations.InstructionsWriteOnlyTheirState := by
  intro i s t h
  obtain ⟨hstack, hentry, hsp, hdt, hst, hdisplay, hdraws⟩ := exec_devicesKept h
  exact ⟨exec_regsKept h, exec_i_of_not_writesI h, exec_memKeptOutside h, exec_pc_of_not_movesPc h,
    hstack, hentry, hsp, hdt, hst, hdisplay, hdraws, exec_frameKept h, exec_eq_of_out_ne_ok h⟩

/-! ## The word at pc decides what a cycle and a step do (R72 to R75) -/

/-- The decoder on two bytes reads their word and leaves nothing (R45, R59). -/
theorem decode_pair_eq_ok_iff (hi lo : Byte) (i : Instr) :
    decode [hi, lo] = .ok (i, []) ↔ decodeWord (wordOfBytes hi lo) = .ok i := by
  rw [decode]
  cases decodeWord (wordOfBytes hi lo) <;> simp [Except.map]

theorem cycle_of_decodeWord_eq_ok {s : State} {i : Instr} (h : decodeWord s.fetchWord = .ok i) :
    cycle s = exec i (s.setPc (s.pc + 2)) := by
  rw [cycle, h, State.afterFetch_eq]

/-- Settles O5: where a cycle is due the step issues it, the cycle runs the decoded instruction, which
answers a next state, and the updates of that state are the end of the cycle. -/
theorem stepRunsDecodedInstruction : Obligations.StepRunsDecodedInstruction := by
  intro s i hhalted hin hbudget hdecode
  have hdue : s.cycleDue = true := by simp [State.cycleDue, hin, hbudget]
  obtain ⟨t, hexec, -⟩ := exec_next_frameKept i (s.setPc (s.pc + 2))
  have hcycle : cycle s = .next t :=
    (cycle_of_decodeWord_eq_ok ((decode_pair_eq_ok_iff _ _ i).1 hdecode)).trans hexec
  refine ⟨t, hexec, ?_⟩
  calc step s = issueCycle s := by simp [step, hhalted, hdue]
    _ = .next (endCycle t) := by rw [issueCycle, hcycle]

/-- The next fetch reads at pc, whatever the outcome (R73, R127). -/
theorem fetchWord_setPc_raise (s : State) (w : Word) (o : CycleOutcome) :
    ((s.setPc w).raise o).fetchWord = wordOfBytes (s.memRead w) (s.memRead (w + 1)) := rfl

/-- Settles O7: a cycle that decodes no instruction only moves pc past the word and raises the
outcome. -/
theorem invalidWordOnlyAdvancesPc : Obligations.InvalidWordOnlyAdvancesPc := by
  intro s hnone
  obtain ⟨t, ht⟩ := cycle_next s
  obtain ⟨i, hi, -⟩ | ⟨-, -, rfl⟩ := cycle_cases ht
  · exact absurd hi (hnone i)
  · refine ⟨_, ht, rfl, ?_⟩
    rw [fetchWord_setPc_raise, BitVec.add_assoc]
    rfl

end Sys2Proof.Machine
end

section
/-!
SUPPORT. Control transfer and skips (41_control.md): the call stack as RET and CALL leave it (R81, R83),
the jumps (R82, R88) and the conditional skips (R84 to R87).
-/

namespace Sys2Proof.Machine

variable {s : State}

/-! ## The call stack (R81, R83) -/

/-- The frame of RET and CALL, whose own statements say what they do to the call stack: nothing but pc,
the stack with its pointer and the outcome output is written. -/
def OnlyPcAndStack (s t : State) : Prop :=
  RegsKept (fun _ => False) s t ∧ t.i = s.i ∧ MemKept s t ∧ TimersKept s t ∧ DisplayKept s t ∧
    FrameKept s t ∧ DrawsKept s t

theorem onlyPcAndStack_setStack_setPc_raise (s : State) (entries : Vector Word 16) (p : Fin 17)
    (w : Word) (o : CycleOutcome) :
    OnlyPcAndStack s (((s.setStack entries p).setPc w).raise o) := by
  simp [OnlyPcAndStack, RegsKept, MemKept, TimersKept, DisplayKept, FrameKept, DrawsKept]

/-- RET with an entry held: SP moves down, the entry it uncovers goes into pc, and the stack is as it
was. -/
theorem exec_ret_of_pos (h : 0 < s.sp.val) :
    exec .ret s = .next (((s.setStack s.stack ⟨s.sp.val - 1, by omega⟩).setPc
      (s.stack[s.sp.val - 1]'(by omega))).raise .ok) := by
  rw [exec, execRet, s.pop_of_pos h]
  rfl

theorem exec_ret_of_empty (h : s.sp.val = 0) : exec .ret s = .next (s.raise .stackUnderflow) := by
  rw [exec, execRet, s.pop_of_empty h]
  rfl

/-- CALL below capacity: the entry at SP becomes the post-fetch pc, SP moves up, and pc is the
address. -/
theorem exec_call_of_lt (nnn : Addr) (h : s.sp.val < 16) :
    exec (.call nnn) s = .next (((s.setStack (s.stack.set s.sp.val s.pc)
      ⟨s.sp.val + 1, by omega⟩).setPc (zextAddr nnn)).raise .ok) := by
  rw [exec, execCall, s.push_of_lt s.pc h]
  rfl

theorem exec_call_of_full (nnn : Addr) (h : s.sp.val = 16) :
    exec (.call nnn) s = .next (s.raise .stackOverflow) := by
  rw [exec, execCall, s.push_of_full s.pc h]
  rfl

theorem zextAddr_toNat (nnn : Addr) : (zextAddr nnn).toNat = nnn.toNat :=
  BitVec.toNat_setWidth_of_le (by decide)

/-- Settles O29: in every state that keeps the stack CALL left, RET uncovers the entry CALL wrote at the
old SP, and below that entry neither of the two writes. -/
theorem retUndoesCall : Obligations.RetUndoesCall := by
  intro nnn s hlt
  refine ⟨_, exec_call_of_lt nnn hlt, fun u hstack hsp => ?_⟩
  have hpush : u.stack = s.stack.set s.sp.val s.pc := hstack
  have hval : u.sp.val = s.sp.val + 1 := congrArg Fin.val hsp
  refine ⟨_, exec_ret_of_pos (by omega), rfl, ?_, ?_, fun k hk => ?_⟩
  · simp [hpush, hval]
  · simp [hval]
  · have hne : s.sp.val ≠ k.val := by omega
    simp [hpush, hne]

/-- Settles O26: RET pops where an entry is held, and only raises StackUnderflow where none is. -/
theorem retPopsTheReturnAddress : Obligations.RetPopsTheReturnAddress := by
  refine ⟨decodeWord_encode (i := .ret) rfl, fun s => ⟨fun h => ?_, exec_ret_of_empty⟩⟩
  exact ⟨_, exec_ret_of_pos h, rfl, rfl, rfl, rfl, onlyPcAndStack_setStack_setPc_raise s _ _ _ _⟩

/-- Settles O28: CALL pushes and jumps below capacity, and only raises StackOverflow at capacity. -/
theorem callPushesTheReturnAddress : Obligations.CallPushesTheReturnAddress := by
  intro nnn s
  refine ⟨decodeWord_encode (i := .call nnn) rfl, fun h => ?_, exec_call_of_full nnn⟩
  refine ⟨_, exec_call_of_lt nnn h, rfl, zextAddr_toNat nnn, rfl, fun k => ?_,
    onlyPcAndStack_setStack_setPc_raise s _ _ _ _⟩
  simp [Vector.getElem_set, eq_comm]

/-! ## Jumps (R82, R88) -/

theorem onlyPc_setPc_raise (s : State) (w : Word) (o : CycleOutcome) :
    OnlyPc s ((s.setPc w).raise o) := by
  simp [OnlyPc, OnlyRegs, RegsKept, RestKept, MemKept, StackKept, TimersKept, DisplayKept, FrameKept,
    DrawsKept]

/-- Settles O27: the meaning of JP is one write of pc. -/
theorem jpPutsTheAddressIntoPc : Obligations.JpPutsTheAddressIntoPc := fun nnn s =>
  ⟨decodeWord_encode (i := .jp nnn) rfl, _, rfl, rfl, zextAddr_toNat nnn, onlyPc_setPc_raise s _ _⟩

theorem addrReg_val (nnn : Addr) : (addrReg nnn).val = nnn.toNat / 256 := by
  have h := nnn.isLt
  simp [addrReg, Nat.shiftRight_eq_div_pow]
  omega

/-- The target of JP V0 does not wrap: 12 bits and 8 bits sum to less than 2^16 (R88, D3). -/
theorem zextAddr_add_zext16_toNat (nnn : Addr) (b : Byte) :
    (zextAddr nnn + zext16 b).toNat = nnn.toNat + b.toNat := by
  have hb : (zext16 b).toNat = b.toNat := BitVec.toNat_setWidth_of_le (by decide)
  rw [BitVec.toNat_add, zextAddr_toNat, hb]
  omega

theorem jumpOffset_toNat (s : State) (x : Reg) :
    (jumpOffset s x).toNat =
      if s.cfg.qcfg.getLsbD 1 then (s.getV x).toNat else (s.getV 0).toNat :=
  apply_ite BitVec.toNat _ _ _

/-- Settles O32: the register of a well-formed JP V0 is the high nibble of its address, and the target
is the sum, which fits in pc. -/
theorem jpV0AddsTheOffsetRegister : Obligations.JpV0AddsTheOffsetRegister := by
  intro x nnn s hwf
  have hx : x = addrReg nnn := of_decide_eq_true hwf
  refine ⟨hx ▸ addrReg_val nnn, decodeWord_encode (i := .jpV0 x nnn) hwf, _, rfl, rfl,
    onlyPc_setPc_raise s _ _, ?_⟩
  show (zextAddr nnn + zext16 (jumpOffset s x)).toNat = _
  rw [zextAddr_add_zext16_toNat, jumpOffset_toNat]

/-! ## Conditional skips (R77, R84 to R87) -/

section Skips

variable {c : Bool} {p : Prop} [Decidable p]

/-- An instruction that skips when `p` holds ends Ok and moves nothing but pc, by 2 more mod 2^16. -/
theorem finish_skipIf_of_iff (h : c = true ↔ p) :
    ∃ t, finish (s.skipIf c) = .next t ∧ t.out = .ok ∧ OnlyPc s t ∧
      t.pc.toNat = if p then (s.pc.toNat + 2) % 65536 else s.pc.toNat := by
  by_cases hp : p
  · obtain rfl : c = true := h.2 hp
    exact ⟨_, rfl, rfl, onlyPc_setPc_raise s (s.pc + 2) .ok, by simp [hp]⟩
  · obtain rfl : c = false := Bool.eq_false_of_not_eq_true (mt h.1 hp)
    exact ⟨_, rfl, rfl, onlyPc_setPc_raise s s.pc .ok, by simp [hp]⟩

/-- The same for an instruction that skips unless `p` holds. -/
theorem finish_skipIf_of_iff_not (h : c = true ↔ ¬p) :
    ∃ t, finish (s.skipIf c) = .next t ∧ t.out = .ok ∧ OnlyPc s t ∧
      t.pc.toNat = if p then s.pc.toNat else (s.pc.toNat + 2) % 65536 := by
  simpa only [ite_not] using finish_skipIf_of_iff h

end Skips

/-- Settles O30: SE skips when the byte comparison holds, SNE unless it does. -/
theorem immediateSkipsCompareWithTheByte : Obligations.ImmediateSkipsCompareWithTheByte :=
  fun x nn _ =>
    ⟨decodeWord_encode (i := .seByte x nn) rfl, decodeWord_encode (i := .sneByte x nn) rfl,
      finish_skipIf_of_iff beq_iff_eq, finish_skipIf_of_iff_not bne_iff_ne⟩

/-- A word of families 0x5 and 0x9 with another low nibble than 0 names no instruction (R65). -/
theorem decodeWord_wordXYN_ne_ok {op n : Nibble} (hop : op = 0x5 ∨ op = 0x9) (hn : n ≠ 0)
    (x y : Reg) (i : Instr) : decodeWord (wordXYN op x y n) ≠ .ok i := by
  intro hok
  have hw := wordXYN_toNat op x y n
  have hnat : op.toNat = 5 ∨ op.toNat = 9 := hop.imp (congrArg BitVec.toNat) (congrArg BitVec.toNat)
  have hzero := (decodeWord_families5and9_iff (by omega)).1 ⟨i, hok⟩
  exact hn (BitVec.eq_of_toNat_eq (show n.toNat = 0 by omega))

/-- Settles O31: SE skips when the two registers are equal, SNE unless they are, and their families ask
for a low nibble of 0. -/
theorem registerSkipsCompareTwoRegisters : Obligations.RegisterSkipsCompareTwoRegisters :=
  fun x y _ =>
    ⟨decodeWord_encode (i := .seReg x y) rfl, decodeWord_encode (i := .sneReg x y) rfl,
      fun _ hn i => ⟨decodeWord_wordXYN_ne_ok (.inl rfl) hn x y i,
        decodeWord_wordXYN_ne_ok (.inr rfl) hn x y i⟩,
      finish_skipIf_of_iff beq_iff_eq, finish_skipIf_of_iff_not bne_iff_ne⟩

end Sys2Proof.Machine
end

section
/-!
SUPPORT. The register-immediate instructions (42_register_immediate.md): the frame of one register write,
and from it LD and ADD of a byte, LD I and RND (R89 to R92).
-/

namespace Sys2Proof.Machine

variable {s : State}

/-! ## One register write that ends with an outcome -/

theorem regsKept_setV_raise (s : State) (x : Reg) (b : Byte) (o : CycleOutcome) :
    RegsKept (· = x) s ((s.setV x b).raise o) := fun r (hr : r ≠ x) => by
  simp [hr]

theorem restKept_setV_raise (s : State) (x : Reg) (b : Byte) (o : CycleOutcome) :
    RestKept s ((s.setV x b).raise o) := by
  simp [RestKept, MemKept, StackKept, TimersKept, DisplayKept, FrameKept]

theorem onlyRegs_setV_raise (s : State) (x : Reg) (b : Byte) (o : CycleOutcome) :
    OnlyRegs (· = x) s ((s.setV x b).raise o) :=
  ⟨regsKept_setV_raise s x b o, restKept_setV_raise s x b o, rfl, rfl⟩

/-- Settles O33: each of the two is one write of Vx, with the immediate or with the sum of two bytes,
which wraps mod 2^8. -/
theorem immediateLoadAndAdd : Obligations.ImmediateLoadAndAdd := by
  intro x nn s
  refine ⟨decodeWord_encode (i := .ldByte x nn) rfl, decodeWord_encode (i := .addByte x nn) rfl,
    ⟨_, rfl, rfl, rfl, ?_, onlyRegs_setV_raise s x _ _⟩,
    ⟨_, rfl, rfl, rfl, ?_, onlyRegs_setV_raise s x _ _⟩⟩
  · simp
  · simp [BitVec.toNat_add]

/-- Settles O34: the meaning of LD I is one write of I. -/
theorem ldISetsTheIndex : Obligations.LdISetsTheIndex := by
  intro nnn s
  refine ⟨decodeWord_encode (i := .ldI nnn) rfl, _, rfl, rfl, rfl, zextAddr_toNat nnn, ?_⟩
  simp [RegsKept, MemKept, StackKept, TimersKept, DisplayKept, FrameKept, DrawsKept]

/-! ## The byte a draw gives (R92, R137) -/

theorem State.nextRand_of_announced {b : Byte} {rest : List Byte} (h : s.randIn = b :: rest) :
    s.nextRand = b := by
  rw [State.nextRand, h]

theorem State.nextRand_of_free (h : s.randIn = []) : s.nextRand = Config.freeRand s.randDrawn := by
  rw [State.nextRand, h]

/-- RND writes Vx once, with the masked byte, after the draw has moved the two draw fields only. -/
theorem exec_rnd (x : Reg) (nn : Byte) (s : State) :
    exec (.rnd x nn) s = .next ((s.takeRand.setV x (s.nextRand &&& nn)).raise .ok) := rfl

/-- Settles O35: the register gets the drawn byte under the mask, whether the host announced the byte or
it is the free one, and the draw takes it off the announced ones and is counted. -/
theorem rndMasksOneDraw : Obligations.RndMasksOneDraw := by
  intro x nn s
  refine ⟨decodeWord_encode (i := .rnd x nn) rfl, _, exec_rnd x nn s, rfl, rfl,
    fun b rest h => ?announced, fun h => ?free, rfl, regsKept_setV_raise s.takeRand x _ _,
    restKept_setV_raise s.takeRand x _ _⟩
  case announced => simp [State.nextRand_of_announced h, h]
  case free => simp [State.nextRand_of_free h, h]

end Sys2Proof.Machine
end

section
/-!
SUPPORT. Arithmetic and logic (43_alu.md): a register write followed by the write of VF (R76), the flags
as numbers (R93), and from both the instructions of family 0x8 (R94 to R102).
-/

namespace Sys2Proof.Machine

/-- Settles O36: LD is one write of Vx. -/
theorem ldRegCopies : Obligations.LdRegCopies := by
  intro x y s
  refine ⟨decodeWord_encode (i := .ldReg x y) rfl, _, rfl, rfl, rfl, ?_, onlyRegs_setV_raise s x _ _⟩
  simp

/-! ## OR, AND and XOR (R95 to R97) -/

/-- The result goes to Vx first and the flag rule runs after it, so it overrides the result when x is F. -/
theorem finish_setV_clearFlagAfterLogic (x : Reg) (result : Byte) (s : State) :
    ∃ t, finish (s.setV x result).clearFlagAfterLogic = .next t ∧ t.out = .ok ∧ t.pc = s.pc ∧
      (∀ r, t.getV r =
        if s.cfg.qcfg.getLsbD 2 = true ∧ r = VF then 0 else if r = x then result else s.getV r) ∧
      RestKept s t ∧ DrawsKept s t := by
  refine ⟨_, rfl, rfl, ?pc, fun r => ?regs, ?rest, ?draws⟩
  case pc => simp
  case regs => simp [logicOpsClearVf]
  case rest => simp [RestKept, MemKept, StackKept, TimersKept, DisplayKept, FrameKept]
  case draws => simp [DrawsKept]

/-- Settles O37: each of the three writes its own result and ends by the same flag rule. -/
theorem logicWritesResultThenClearsVf : Obligations.LogicWritesResultThenClearsVf := by
  intro x y s
  refine ⟨decodeWord_encode (i := .orReg x y) rfl, decodeWord_encode (i := .andReg x y) rfl,
    decodeWord_encode (i := .xorReg x y) rfl, fun i result h => ?_⟩
  obtain ⟨rfl, rfl⟩ | ⟨rfl, rfl⟩ | ⟨rfl, rfl⟩ := h
  · exact finish_setV_clearFlagAfterLogic x (s.getV x ||| s.getV y) s
  · exact finish_setV_clearFlagAfterLogic x (s.getV x &&& s.getV y) s
  · exact finish_setV_clearFlagAfterLogic x (s.getV x ^^^ s.getV y) s

/-! ## The flags as numbers (R93) -/

theorem flagByte_toNat (c : Bool) : (flagByte c).toNat = c.toNat := by
  cases c <;> rfl

/-- The 9-bit sum does not wrap, and its bit 8 is set exactly from 256 on. -/
theorem carryOut_toNat (a b : Byte) :
    (carryOut a b).toNat = if 256 ≤ a.toNat + b.toNat then 1 else 0 := by
  have hbit : ((a.setWidth 9 + b.setWidth 9).getLsbD 8).toNat = (a.toNat + b.toNat) / 256 := by
    rw [BitVec.getLsbD, BitVec.toNat_add, BitVec.toNat_setWidth_of_le (by decide),
      BitVec.toNat_setWidth_of_le (by decide), Nat.toNat_testBit]
    omega
  rw [carryOut, flagByte_toNat, hbit]
  split <;> omega

theorem noBorrow_toNat (a b : Byte) :
    (noBorrow a b).toNat = if b.toNat ≤ a.toNat then 1 else 0 := by
  rw [noBorrow, flagByte_toNat]
  by_cases h : b.toNat ≤ a.toNat <;> simp [BitVec.le_def, h]

theorem lowBitOut_toNat (src : Byte) : (lowBitOut src).toNat = src.toNat % 2 := by
  rw [lowBitOut, flagByte_toNat, BitVec.getLsbD, Nat.toNat_testBit, Nat.pow_zero, Nat.div_one]

theorem highBitOut_toNat (src : Byte) : (highBitOut src).toNat = src.toNat / 128 := by
  rw [highBitOut, flagByte_toNat, BitVec.getLsbD, Nat.toNat_testBit]
  omega

/-! ## ADD, SUB, SUBN and the shifts (R98 to R102) -/

/-- The flag is written after the result, so it is what VF holds when x is F too. -/
theorem finish_setV_setFlag (s : State) (x : Reg) {b f : Byte} {result flag : Nat}
    (hb : b.toNat = result) (hf : f.toNat = flag) :
    ∃ t, finish ((s.setV x b).setFlag f) = .next t ∧ t.out = .ok ∧ t.pc = s.pc ∧
      (∀ r, (t.getV r).toNat =
        if r = VF then flag else if r = x then result else (s.getV r).toNat) ∧
      RestKept s t ∧ DrawsKept s t := by
  refine ⟨_, rfl, rfl, rfl, fun r => ?regs, ?rest, rfl, rfl⟩
  case regs => simp [← hb, ← hf, apply_ite BitVec.toNat]
  case rest => simp [RestKept, MemKept, StackKept, TimersKept, DisplayKept, FrameKept]

/-- Settles O38: the sum wraps mod 2^8 and the carry is that of the operands before the write. -/
theorem addWritesSumThenCarry : Obligations.AddWritesSumThenCarry := fun x y s =>
  ⟨decodeWord_encode (i := .addReg x y) rfl,
    finish_setV_setFlag s x (BitVec.toNat_add _ _) (carryOut_toNat _ _)⟩

/-- The difference wraps mod 2^8; the 256 comes first, so no natural subtraction is cut off at 0. -/
theorem byte_toNat_sub (a b : Byte) : (a - b).toNat = (256 + a.toNat - b.toNat) % 256 := by
  rw [BitVec.toNat_sub]
  omega

/-- Settles O39: the two subtractions differ in which operand is the minuend. -/
theorem subtractionWritesDifferenceThenNoBorrow :
    Obligations.SubtractionWritesDifferenceThenNoBorrow := by
  intro x y s
  refine ⟨decodeWord_encode (i := .subReg x y) rfl, decodeWord_encode (i := .subnReg x y) rfl,
    fun i a b h => ?_⟩
  obtain ⟨rfl, rfl, rfl⟩ | ⟨rfl, rfl, rfl⟩ := h
  · exact finish_setV_setFlag s x (byte_toNat_sub _ _) (noBorrow_toNat _ _)
  · exact finish_setV_setFlag s x (byte_toNat_sub _ _) (noBorrow_toNat _ _)

theorem byte_toNat_ushiftRight_one (b : Byte) : (b >>> 1).toNat = b.toNat / 2 := by
  rw [BitVec.toNat_ushiftRight, Nat.shiftRight_one]

theorem byte_toNat_shiftLeft_one (b : Byte) : (b <<< 1).toNat = 2 * b.toNat % 256 := by
  rw [BitVec.toNat_shiftLeft, Nat.shiftLeft_eq, Nat.mul_comm]

/-- Settles O40: both shifts take the source that QCFG bit 0 selects, and the bit out is read from it
before the write. -/
theorem shiftsWriteResultThenBitOut : Obligations.ShiftsWriteResultThenBitOut := by
  intro x y s
  refine ⟨decodeWord_encode (i := .shr x y) rfl, decodeWord_encode (i := .shl x y) rfl, ?_⟩
  rintro _ rfl
  exact ⟨finish_setV_setFlag s x (byte_toNat_ushiftRight_one (shiftSource s x y)) (lowBitOut_toNat _),
    finish_setV_setFlag s x (byte_toNat_shiftLeft_one (shiftSource s x y)) (highBitOut_toNat _)⟩

end Sys2Proof.Machine
end

section
/-!
SUPPORT. The display instructions (44_display.md): the pixels of a sprite, found by counting rows and
columns round the display (R105, R106), and from them CLS and DRW, which waits or draws (R104 to R108).
-/

namespace Sys2Proof.Machine

/-- Settles O41: the meaning of CLS is one write of the display, with the blank one. -/
theorem clsClearsEveryPixel : Obligations.ClsClearsEveryPixel := by
  refine ⟨decodeWord_encode (i := .cls) rfl, fun s => ⟨_, rfl, rfl, rfl, fun y x => ?dark, ?frame⟩⟩
  case dark => simp [blankDisplay]
  case frame => simp [RegsKept, MemKept, StackKept, TimersKept, FrameKept, DrawsKept]

/-! ## The pixels of a sprite (R105, R106) -/

/-- Row r and column c of a sprite meet a pixel exactly when they are its distances from the start,
counted round the display, and clipping does not discard them. -/
theorem spriteTarget_eq_some_iff (clip : Bool) {x0 y0 r c : Nat} (hx0 : x0 < 64) (hy0 : y0 < 32)
    (hr : r < 32) (hc : c < 64) (py : Fin 32) (px : Fin 64) :
    spriteTarget clip x0 y0 r c = some (py, px) ↔
      r = (py.val + 32 - y0) % 32 ∧ c = (px.val + 64 - x0) % 64 ∧
        (clip = false ∨ (x0 + c < 64 ∧ y0 + r < 32)) := by
  have hrow : Fin.ofNat 32 (y0 + r) = py ↔ r = (py.val + 32 - y0) % 32 := by
    rw [Fin.ext_iff, Fin.val_ofNat]
    omega
  have hcol : Fin.ofNat 64 (x0 + c) = px ↔ c = (px.val + 64 - x0) % 64 := by
    rw [Fin.ext_iff, Fin.val_ofNat]
    omega
  have hkept : ¬(clip && (decide (64 ≤ x0 + c) || decide (32 ≤ y0 + r))) = true ↔
      clip = false ∨ (x0 + c < 64 ∧ y0 + r < 32) := by
    cases clip <;> simp
  rw [spriteTarget, Option.ite_none_left_eq_some, Option.some.injEq, Prod.mk.injEq, hrow, hcol, hkept,
    and_comm, and_assoc]

/-- `spriteToggles` counts from the start to the pixel, the blit from the 1 bits of the sprite to their
targets: they name the same pixels. -/
theorem spriteToggles_iff (s : State) (x y : Reg) (n : Nibble) (py : Fin 32) (px : Fin 64) :
    spriteToggles s x y n py px = true ↔
      ∃ r < n.toNat, ∃ c < 8, spriteBit (spriteRow s r) c = true ∧
        spriteTarget (clipSprites s.cfg.qcfg) (startColumn s x) (startRow s y) r c =
          some (py, px) := by
  have hn := n.isLt
  have hx0 : startColumn s x < 64 := Nat.mod_lt _ (by decide)
  have hy0 : startRow s y < 32 := Nat.mod_lt _ (by decide)
  simp only [spriteToggles, Bool.and_eq_true, Bool.or_eq_true, Bool.not_eq_true', decide_eq_true_eq]
  constructor
  · rintro ⟨⟨⟨hr, hc⟩, hbit⟩, hkept⟩
    exact ⟨_, hr, _, hc, hbit, (spriteTarget_eq_some_iff _ hx0 hy0 (by omega) (by omega) py px).2
      ⟨rfl, rfl, hkept⟩⟩
  · rintro ⟨r, hr, c, hc, hbit, htarget⟩
    obtain ⟨rfl, rfl, hkept⟩ :=
      (spriteTarget_eq_some_iff _ hx0 hy0 (by omega) (by omega) py px).1 htarget
    exact ⟨⟨⟨hr, hc⟩, hbit⟩, hkept⟩

theorem blit_spriteToggles (s : State) (x y : Reg) (n : Nibble) :
    (∀ py px, (blit s x y n.toNat).1[py][px] = (s.pixel py px ^^ spriteToggles s x y n py px)) ∧
      ((blit s x y n.toNat).2 = true ↔
        ∃ py px, spriteToggles s x y n py px = true ∧ s.pixel py px = true) :=
  blit_spec s x y n.toNat (by have := n.isLt; omega) _ (spriteToggles_iff s x y n)

/-! ## DRW waits or draws (R105) -/

section Draw

variable (s : State) (x y : Reg) (n : Nibble)

/-- The state in which a DRW that need not wait ends: the sprite on the display, the collision in VF. -/
def State.drawn : State :=
  ((s.setDisplay (blit s x y n.toNat).1).setV VF (flagByte (blit s x y n.toNat).2)).raise .ok

theorem exec_drw_of_ready (h : s.cfg.qcfg.getLsbD 4 = true → s.cycleInFrame = 0) :
    exec (.drw x y n) s = .next (s.drawn x y n) := by
  have hready : ¬drawMustWait s = true := fun hwait =>
    have ⟨hbit, hlater⟩ := (drawMustWait_iff s).1 hwait
    hlater (h hbit)
  exact if_neg hready

theorem exec_drw_of_wait (h : drawMustWait s = true) :
    exec (.drw x y n) s = .next ((s.setPc (s.pc - 2)).raise .awaitRefresh) :=
  if_pos h

theorem drawn_pixel (py : Fin 32) (px : Fin 64) :
    (s.drawn x y n).pixel py px = (s.pixel py px ^^ spriteToggles s x y n py px) :=
  (blit_spriteToggles s x y n).1 py px

theorem drawn_getV (r : Reg) :
    (s.drawn x y n).getV r = if r = VF then flagByte (blit s x y n.toNat).2 else s.getV r := by
  simp [State.drawn]

theorem drawn_getV_VF : (s.drawn x y n).getV VF = flagByte (blit s x y n.toNat).2 := by
  rw [drawn_getV, if_pos rfl]

theorem drawn_getV_VF_eq_zero_or_one :
    (s.drawn x y n).getV VF = 0 ∨ (s.drawn x y n).getV VF = 1 := by
  rw [drawn_getV_VF]
  cases (blit s x y n.toNat).2
  · exact .inl rfl
  · exact .inr rfl

theorem flagByte_eq_one_iff (c : Bool) : flagByte c = 1 ↔ c = true := by
  cases c <;> simp [flagByte]

theorem drawn_getV_VF_eq_one_iff :
    (s.drawn x y n).getV VF = 1 ↔
      ∃ py px, spriteToggles s x y n py px = true ∧ s.pixel py px = true := by
  rw [drawn_getV_VF, flagByte_eq_one_iff]
  exact (blit_spriteToggles s x y n).2

/-- A draw changes nothing the sprite's pixels are computed from, unless a coordinate stands in VF. -/
theorem spriteToggles_drawn {x y : Reg} (hx : x ≠ VF) (hy : y ≠ VF) :
    spriteToggles (s.drawn x y n) x y n = spriteToggles s x y n := by
  have hvx : (s.drawn x y n).getV x = s.getV x := by rw [drawn_getV, if_neg hx]
  have hvy : (s.drawn x y n).getV y = s.getV y := by rw [drawn_getV, if_neg hy]
  funext py px
  rw [spriteToggles, hvx, hvy]
  rfl

end Draw

/-- Settles O42: a DRW that need not wait writes the blit's display and then VF, and the blit toggles the
pixels of the sprite. -/
theorem drwTogglesExactlyTheSprite : Obligations.DrwTogglesExactlyTheSprite := by
  intro x y n s
  refine ⟨decodeWord_encode (i := .drw x y n) rfl, fun hready => ?_⟩
  refine ⟨_, exec_drw_of_ready s x y n hready, rfl, rfl, drawn_pixel s x y n,
    drawn_getV_VF_eq_zero_or_one s x y n, drawn_getV_VF_eq_one_iff s x y n, fun r hr => ?regs, ?frame⟩
  case regs => rw [drawn_getV, if_neg hr]
  case frame => simp [State.drawn, MemKept, StackKept, TimersKept, FrameKept, DrawsKept]

/-- Settles O43: the wait is one write of pc, 2 less mod 2^16, and the outcome. -/
theorem drwWaitsForTheNextFrame : Obligations.DrwWaitsForTheNextFrame := by
  intro x y n s hbit hlater
  refine ⟨_, exec_drw_of_wait s x y n ((drawMustWait_iff s).2 ⟨hbit, hlater⟩), ?rewind, rfl⟩
  case rewind =>
    show (s.pc - 2).toNat = _
    rw [BitVec.toNat_sub, Nat.add_comm]
    rfl

/-- Settles O44: both draws toggle the same pixels, so the second undoes the first; and a pixel of the
sprite that is lit between them is one that the first draw lit. -/
theorem drawingTwiceRestoresTheDisplay : Obligations.DrawingTwiceRestoresTheDisplay := by
  intro x y n s hx hy hready
  have hsame := spriteToggles_drawn s n hx hy
  refine ⟨_, _, exec_drw_of_ready s x y n hready, exec_drw_of_ready (s.drawn x y n) x y n hready,
    fun py px => ?restored, ?collision⟩
  case restored => rw [drawn_pixel, hsame, drawn_pixel, Bool.xor_assoc, Bool.xor_self, Bool.xor_false]
  case collision =>
    rw [drawn_getV_VF_eq_one_iff, hsame]
    refine exists_congr fun py => exists_congr fun px => ?_
    rw [drawn_pixel]
    cases s.pixel py px <;> simp

end Sys2Proof.Machine
end

section
/-!
SUPPORT. The key instructions (45_keys.md): the key that a register's low 4 bits name, held or not (R110
to R112), and LD Vx, K as one equation for each of its two cases (R113).
-/

namespace Sys2Proof.Machine

/-! ## SKP and SKNP (R110 to R112) -/

theorem lowNibble_val (b : Byte) : (lowNibble b).val = b.toNat % 16 := by
  simp [lowNibble]

/-- The key tested is any key whose number is the register mod 16, so bits 7:4 do not matter (D7). -/
theorem keyHeld_of_val_eq_mod {s : State} {x : Reg} {k : Key} (h : k.val = (s.getV x).toNat % 16) :
    keyHeld s x = s.keys[k] := by
  obtain rfl : lowNibble (s.getV x) = k := Fin.ext ((lowNibble_val _).trans h.symm)
  rfl

/-- Settles O45: both test the same key of the snapshot, SKP skips when it is held, SKNP unless it is. -/
theorem keySkipsTestTheSnapshot : Obligations.KeySkipsTestTheSnapshot := by
  intro x s k hk
  have hheld : keyHeld s x = true ↔ s.keys[k] = true := by rw [keyHeld_of_val_eq_mod hk]
  have hnot : (!keyHeld s x) = true ↔ ¬s.keys[k] = true := by
    rw [← hheld, Bool.not_eq_true', Bool.not_eq_true]
  exact ⟨decodeWord_encode (i := .skp x) rfl, decodeWord_encode (i := .sknp x) rfl,
    finish_skipIf_of_iff hheld, finish_skipIf_of_iff_not hnot⟩

/-! ## LD Vx, K (R113) -/

section KeyWait

variable {s : State}

theorem exec_ldVxK_of_edge (x : Reg) {k : Key} (h : s.frameEdge = some k) :
    exec (.ldVxK x) s = .next ((s.setV x (BitVec.ofNat 8 k.val)).raise .ok) := by
  rw [exec, execLdVxK, s.keyEdge_eq, h]
  rfl

theorem exec_ldVxK_of_no_edge (x : Reg) (h : s.frameEdge = none) :
    exec (.ldVxK x) s = .next ((s.setPc (s.pc - 2)).raise .awaitKeypress) := by
  rw [exec, execLdVxK, s.keyEdge_eq, h]
  rfl

end KeyWait

/-- A key number is below 16, so it fits in a register. -/
theorem keyByte_toNat (k : Key) : (BitVec.ofNat 8 k.val).toNat = k.val := by
  rw [BitVec.toNat_ofNat, Nat.mod_eq_of_lt (k.isLt.trans (by decide))]

/-- The rewind adds 2^16 - 2 mod 2^16, so a pc below 2 wraps (R78, D3). -/
theorem word_toNat_sub_two (w : Word) : (w - 2).toNat = (w.toNat + 65534) % 65536 := by
  rw [BitVec.toNat_sub, Nat.add_comm]
  rfl

/-- Settles O46: with an edge the meaning is one write of Vx, without one it is one write of pc and the
outcome. -/
theorem ldVxKStoresTheEdgeOrWaits : Obligations.LdVxKStoresTheEdgeOrWaits := by
  intro x s
  refine ⟨decodeWord_encode (i := .ldVxK x) rfl, fun k hedge => ?stores, fun hnone => ?waits⟩
  case stores =>
    refine ⟨_, exec_ldVxK_of_edge x hedge, rfl, rfl, ?_, onlyRegs_setV_raise s x _ _⟩
    rw [State.raise_getV, State.getV_setV, if_pos rfl, keyByte_toNat]
  case waits => exact ⟨_, exec_ldVxK_of_no_edge x hnone, word_toNat_sub_two s.pc, rfl⟩

end Sys2Proof.Machine
end

section
/-!
SUPPORT. The transfers (46_transfer.md): one write of a timer (R114 to R116), one write of I (R117,
R118), the decimal digits (R119) and the bulk transfers, whose bytes are found by their offsets from I
(R120, R121).
-/

namespace Sys2Proof.Machine

/-! ## The timers (R114 to R116) -/

/-- Settles O47: each of the three is one write, of Vx or of one timer. -/
theorem timerTransfers : Obligations.TimerTransfers := by
  intro x s
  refine ⟨decodeWord_encode (i := .ldVxDT x) rfl, decodeWord_encode (i := .ldDTVx x) rfl,
    decodeWord_encode (i := .ldSTVx x) rfl, ⟨_, rfl, rfl, rfl, ?reads, onlyRegs_setV_raise s x _ _⟩,
    ⟨_, rfl, rfl, rfl, rfl, rfl, ?delay⟩, ⟨_, rfl, rfl, rfl, rfl, rfl, ?sound⟩⟩
  case reads => simp
  case delay | sound => simp [RegsKept, MemKept, StackKept, DisplayKept, FrameKept, DrawsKept]

/-! ## I (R117, R118) -/

/-- An instruction that is one write of I. -/
theorem finish_setI (s : State) {w : Word} {index : Nat} (hw : w.toNat = index) :
    ∃ t, finish (s.setI w) = .next t ∧ t.out = .ok ∧ t.pc = s.pc ∧ t.i.toNat = index ∧
      RegsKept (fun _ => False) s t ∧ MemKept s t ∧ StackKept s t ∧ TimersKept s t ∧
      DisplayKept s t ∧ FrameKept s t ∧ DrawsKept s t := by
  refine ⟨_, rfl, rfl, rfl, hw, ?frame⟩
  case frame => simp [RegsKept, MemKept, StackKept, TimersKept, DisplayKept, FrameKept, DrawsKept]

/-- The last glyph starts at 0x09B, so the address does not wrap. -/
theorem glyphAddr_toNat (b : Byte) : (glyphAddr b).toNat = 0x050 + 5 * (b.toNat % 16) := by
  simp only [glyphAddr, lowNibble_val, BitVec.toNat_add, BitVec.toNat_mul, BitVec.toNat_ofNat,
    BitVec.reduceToNat]
  omega

/-- Settles O48: the meaning of LD F is one write of I. -/
theorem ldFPointsAtTheGlyph : Obligations.LdFPointsAtTheGlyph := fun x s =>
  ⟨decodeWord_encode (i := .ldF x) rfl, finish_setI s (glyphAddr_toNat (s.getV x))⟩

theorem add_zext16_toNat (w : Word) (b : Byte) :
    (w + zext16 b).toNat = (w.toNat + b.toNat) % 65536 := by
  rw [BitVec.toNat_add, BitVec.toNat_setWidth_of_le (by decide)]

/-- Settles O49: the meaning of ADD I is one write of I, and the 16-bit sum wraps. -/
theorem addIAddsWithoutAFlag : Obligations.AddIAddsWithoutAFlag := fun x s =>
  ⟨decodeWord_encode (i := .addI x) rfl, finish_setI s (add_zext16_toNat s.i (s.getV x))⟩

/-! ## The decimal digits (R119) -/

theorem hundreds_toNat (b : Byte) : (hundreds b).toNat = b.toNat / 100 := BitVec.toNat_udiv

theorem tens_toNat (b : Byte) : (tens b).toNat = b.toNat / 10 % 10 := by
  rw [tens, BitVec.toNat_umod, BitVec.toNat_udiv]
  rfl

theorem ones_toNat (b : Byte) : (ones b).toNat = b.toNat % 10 := BitVec.toNat_umod

/-- The byte at one offset from I is not the byte at another, the wrap at 0xFFF included (R43, R49). -/
theorem memIndex_indexed_ne (s : State) {j k : Nat} (hj : j < 4096) (hk : k < 4096) (h : j ≠ k) :
    memIndex (indexed s j) ≠ memIndex (indexed s k) :=
  fun he => h (memIndex_indexed_inj hj hk he)

/-- Settles O50: the three bytes are distinct, so no digit overwrites another. -/
theorem ldBStoresTheDecimalDigits : Obligations.LdBStoresTheDecimalDigits := by
  intro x s
  have h01 := memIndex_indexed_ne s (j := 0) (k := 1) (by decide) (by decide) (by decide)
  have h02 := memIndex_indexed_ne s (j := 0) (k := 2) (by decide) (by decide) (by decide)
  have h12 := memIndex_indexed_ne s (j := 1) (k := 2) (by decide) (by decide) (by decide)
  refine ⟨decodeWord_encode (i := .ldB x) rfl, _, rfl, rfl, rfl, ?hundreds, ?tens, ?ones,
    exec_memKeptOutside (i := .ldB x) rfl, exec_regsKept (i := .ldB x) rfl, rfl, ?frame⟩
  case hundreds => simp [h01, h02, hundreds_toNat]
  case tens => simp [h12, tens_toNat]
  case ones => simp [ones_toNat]
  case frame => simp [StackKept, TimersKept, DisplayKept, FrameKept, DrawsKept]

/-! ## The bulk transfers (R120, R121) -/

/-- Both bulk transfers move I past the range, mod 2^16, or not at all (D4). -/
theorem bulkIndex_toNat (s : State) (x : Reg) :
    (bulkIndex s x).toNat =
      if s.cfg.qcfg.getLsbD 6 then (s.i.toNat + x.val + 1) % 65536 else s.i.toNat := by
  rw [bulkIndex, indexIncrementOnBulkTransfer, apply_ite BitVec.toNat, indexed, BitVec.toNat_add,
    BitVec.toNat_ofNat, Nat.add_mod_mod, Nat.add_assoc]

theorem exec_storeRegs (x : Reg) (s : State) :
    exec (.storeRegs x) s = .next (((storeBulk s x).setI (bulkIndex s x)).raise .ok) := rfl

theorem exec_loadRegs (x : Reg) (s : State) :
    exec (.loadRegs x) s = .next (((loadBulk s x).setI (bulkIndex s x)).raise .ok) := rfl

theorem storeBulk_memRead_indexed (s : State) {x k : Reg} (h : k ≤ x) :
    (storeBulk s x).memRead (indexed s k.val) = s.getV k :=
  storeBulk_memRead_hit s x k h _ rfl

theorem loadBulk_getV_of_le (s : State) {x k : Reg} (h : k ≤ x) :
    (loadBulk s x).getV k = s.memRead (indexed s k.val) := by
  rw [loadBulk_getV, if_pos h]

/-- Settles O51: the store writes the registers at their offsets from I, and then I is written. -/
theorem bulkStoreWritesV0ToVx : Obligations.BulkStoreWritesV0ToVx := by
  intro x s
  refine ⟨decodeWord_encode (i := .storeRegs x) rfl, _, exec_storeRegs x s, rfl, ?pc,
    fun k hk => storeBulk_memRead_indexed s hk, exec_memKeptOutside (exec_storeRegs x s),
    bulkIndex_toNat s x, exec_regsKept (exec_storeRegs x s), ?frame⟩
  case pc => simp
  case frame => simp [StackKept, TimersKept, DisplayKept, FrameKept, DrawsKept]

/-- Settles O52: the load reads memory, which it does not write, at the registers' offsets from I, and
then I is written. -/
theorem bulkLoadReadsV0ToVx : Obligations.BulkLoadReadsV0ToVx := by
  intro x s
  refine ⟨decodeWord_encode (i := .loadRegs x) rfl, _, exec_loadRegs x s, rfl, ?pc,
    fun k hk => loadBulk_getV_of_le s hk, exec_regsKept (exec_loadRegs x s), ?memory,
    bulkIndex_toNat s x, ?frame⟩
  case pc => simp
  case memory => simp [MemKept]
  case frame => simp [StackKept, TimersKept, DisplayKept, FrameKept, DrawsKept]

/-- What an address reads as depends on memory and the font alone (R14, R40). -/
theorem memRead_congr {s t : State} (hcfg : s.cfg = t.cfg) (hmem : s.mem = t.mem) (a : Word) :
    s.memRead a = t.memRead a := by
  rw [State.memRead, State.memRead, hcfg, hmem]

theorem indexed_congr {s t : State} (h : s.i = t.i) (k : Nat) : indexed s k = indexed t k := by
  rw [indexed, indexed, h]

/-- Settles O53: the load reads, at the same offsets from the same I, the bytes the store wrote. -/
theorem bulkLoadUndoesBulkStore : Obligations.BulkLoadUndoesBulkStore := by
  intro x s
  refine ⟨_, exec_storeRegs x s, fun u hcfg hmem hi => ⟨_, exec_loadRegs x u, fun k hk => ?_⟩⟩
  calc (loadBulk u x).getV k
      = u.memRead (indexed u k.val) := loadBulk_getV_of_le u hk
    _ = u.memRead (indexed s k.val) := by rw [indexed_congr hi]
    _ = (storeBulk s x).memRead (indexed s k.val) := memRead_congr hcfg hmem _
    _ = s.getV k := storeBulk_memRead_indexed s hk

end Sys2Proof.Machine
end

section
/-!
SUPPORT. The sequencer of 60_exceptions.md: what a step does by where the sequencer stands (R139), the
frame start (R132, R134, R135), what the end of a cycle decides from its outcome (R128, R153), and
`Frame()` as a run of steps.
-/

namespace Sys2Proof.Machine

/-! ## What a step does, by where the sequencer stands (R139) -/

theorem step_of_halted {s : State} (h : s.halted = true) : step s = .next s := if_pos h

theorem frame_of_halted {s : State} (h : s.halted = true) : frame s = .next s := if_pos h

theorem cycleDue_iff (s : State) :
    s.cycleDue = true ↔ s.inFrame = true ∧ s.cycleInFrame < s.cfg.cyclesPerFrame := by
  simp [State.cycleDue]

/-- Where no cycle is due a step starts a frame. -/
theorem step_of_not_cycleDue {s : State} (hhalted : s.halted = false) (hdue : s.cycleDue = false) :
    step s = .next (frameStart s) := by
  simp [step, hhalted, hdue]

theorem issueCycle_of_cycle {s t : State} (h : cycle s = .next t) :
    issueCycle s = .next (endCycle t) := by
  rw [issueCycle, h]

/-- Where a cycle is due a step is that cycle and its end. -/
theorem step_of_cycleDue {s t : State} (hhalted : s.halted = false) (hdue : s.cycleDue = true)
    (h : cycle s = .next t) : step s = .next (endCycle t) := by
  rw [← issueCycle_of_cycle h]
  simp [step, hhalted, hdue]

/-- Settles O16: the step and the call of `Frame()` both ask first whether the machine is halted. -/
theorem haltedMachineKeepsItsState : Obligations.HaltedMachineKeepsItsState :=
  fun _ h => ⟨step_of_halted h, frame_of_halted h⟩

/-! ## The frame start (R132, R134, R135) -/

theorem nextKeys_of_announced {s : State} {k : KeySnapshot} {rest : List KeySnapshot}
    (h : s.keysIn = k :: rest) : s.nextKeys = k := by
  rw [State.nextKeys, h]

theorem nextKeys_of_not_announced {s : State} (h : s.keysIn = []) :
    s.nextKeys = Config.freeKeys s.framesStarted := by
  rw [State.nextKeys, h]

/-- Settles O13: between frames no cycle is due, so the step is a frame start, whose fields the laws of
`frameStart` give; the new snapshot is the announced one or the free value. -/
theorem stepBetweenFramesStartsAFrame : Obligations.StepBetweenFramesStartsAFrame := by
  intro s hhalted hbetween
  have hdue : s.cycleDue = false := by
    rw [← Bool.not_eq_true, cycleDue_iff]
    rintro ⟨hin, hbudget⟩
    obtain hout | hspent := hbetween
    · cases hin.symm.trans hout
    · omega
  refine ⟨frameStart s, step_of_not_cycleDue hhalted hdue, rfl, ?delay, ?sound, frameStart_keysPrev s,
    ?announced, ?free, ?edge, ?rest⟩
  case delay => rw [frameStart_dt, countDown_toNat]
  case sound => rw [frameStart_st, countDown_toNat]
  case announced =>
    intro k rest hkeys
    simp [nextKeys_of_announced hkeys, hkeys]
  case free =>
    intro hkeys
    simp [nextKeys_of_not_announced hkeys, hkeys]
  case edge => simp [keyWaitOnRelease]
  case rest => simp [hhalted, RegsKept, MemKept, StackKept, DisplayKept, DrawsKept]

/-- What an edge of the configured kind is: held and released, or not held and held (R135). -/
theorem hasEdge_iff (onRelease : Bool) (prev cur : KeySnapshot) (k : Key) :
    hasEdge onRelease prev cur k = true ↔
      if onRelease then prev[k] = true ∧ cur[k] = false else prev[k] = false ∧ cur[k] = true := by
  cases onRelease <;> simp [hasEdge]

/-- Settles O14: a frame start reports what the edge detector finds between the snapshot it had and the
one it takes. -/
theorem frameStartReportsTheLowestKeyEdge : Obligations.FrameStartReportsTheLowestKeyEdge := by
  rintro s t rfl edge
  have hedge (k : Key) :
      hasEdge (keyWaitOnRelease s.cfg.qcfg) s.keys s.nextKeys k = true ↔ edge k := by
    rw [hasEdge_iff, ← frameStart_keys]
    rfl
  have hnoEdge (k : Key) :
      hasEdge (keyWaitOnRelease s.cfg.qcfg) s.keys s.nextKeys k = false ↔ ¬edge k := by
    rw [← hedge, Bool.not_eq_true]
  rw [frameStart_frameEdge]
  constructor
  · intro k
    rw [edgeDetect_eq_some, hedge]
    simp only [hnoEdge]
  · rw [edgeDetect_eq_none]
    simp only [hnoEdge]

/-! ## What the end of a cycle decides (R128, R153) -/

theorem FrameKept.cycleInFrame_eq {s t : State} (h : FrameKept s t) :
    t.cycleInFrame = s.cycleInFrame := by
  obtain ⟨-, -, -, -, hcount, -⟩ := h
  exact hcount

theorem FrameKept.halted_eq {s t : State} (h : FrameKept s t) : t.halted = s.halted := by
  obtain ⟨-, -, -, -, -, hhalted, -⟩ := h
  exact hhalted

/-- An error is no wait. -/
theorem CycleOutcome.isAwait_of_isError {o : CycleOutcome} (h : o.isError = true) :
    o.isAwait = false := by
  cases o with
  | ok | awaitKeypress | awaitRefresh => cases h
  | invalidInstruction | stackOverflow | stackUnderflow => rfl

/-- A wait is no error, so it does not stop the machine under either policy. -/
theorem stopsMachine_of_isAwait {s : State} (h : s.out.isAwait = true) : stopsMachine s = false := by
  rw [← Bool.not_eq_true, stopsMachine_iff]
  rintro ⟨-, herror⟩
  cases h.symm.trans (CycleOutcome.isAwait_of_isError herror)

/-- Ok, and an error under the policy that goes on, neither stop the machine nor wait. -/
theorem goesOn_of_ok_or_goOn {s : State}
    (h : s.out = .ok ∨ (s.out.isError = true ∧ s.cfg.onError = .goOn)) :
    stopsMachine s = false ∧ s.out.isAwait = false := by
  obtain hok | ⟨herror, hpolicy⟩ := h
  · simp [stopsMachine, hok, CycleOutcome.isError, CycleOutcome.isAwait]
  · exact ⟨by simp [stopsMachine, hpolicy], CycleOutcome.isAwait_of_isError herror⟩

/-- Settles O15: the cycle leaves the latches as they were, and its end sets them from whether the
outcome stops the machine and whether it waits. -/
theorem outcomeDecidesWhatFollowsACycle : Obligations.OutcomeDecidesWhatFollowsACycle := by
  intro s t hhalted hin hbudget hcycle
  have hkept := cycle_frameKept hcycle
  rw [← hkept.cycleInFrame_eq, ← hkept.cfg_eq]
  have hgoing : t.halted = false := hkept.halted_eq.trans hhalted
  refine ⟨endCycle t, step_of_cycleDue hhalted ((cycleDue_iff s).2 ⟨hin, hbudget⟩) hcycle, rfl,
    ?error, ?wait, ?goesOn, rfl⟩
  case error =>
    intro herror hpolicy
    simp [(stopsMachine_iff t).2 ⟨hpolicy, herror⟩]
  case wait =>
    intro hawait
    simp [hgoing, hawait, stopsMachine_of_isAwait hawait]
  case goesOn =>
    intro hout
    obtain ⟨hstops, hawait⟩ := goesOn_of_ok_or_goOn hout
    simp [hgoing, hstops, hawait]

/-! ## `Frame()` as a run of steps (R138, R139) -/

/-- The sequencer stands inside a frame with `left` cycles of its budget left, at least one. -/
structure MidFrame (left : Nat) (s : State) : Prop where
  going : s.halted = false
  inFrame : s.inFrame = true
  due : s.cycleInFrame < s.cfg.cyclesPerFrame
  budget : s.cycleInFrame + left = s.cfg.cyclesPerFrame

/-- `n` steps from `s` end in `t`: they are the cycles left of a frame, and the sequencer stands inside
the frame until the last of them. -/
structure RunsToFrameEnd (n : Nat) (s t : State) : Prop where
  run : Host.Core.run core n s = .next t
  ended : t.inFrame = false
  count : t.cycleInFrame = s.cycleInFrame + n
  inside : ∀ j < n, ∃ u : State, Host.Core.run core j s = .next u ∧ u.inFrame = true ∧
    u.halted = false ∧ u.cycleInFrame = s.cycleInFrame + j

theorem run_succ_of_step {s t : State} (h : step s = .next t) (n : Nat) :
    Host.Core.run core (n + 1) s = Host.Core.run core n t := by
  have hcore : core.step s = .next t := h
  simp only [Host.Core.run, hcore]

/-- A frame start enters a frame with the whole budget left. -/
theorem midFrame_frameStart {s : State} (hlegal : s.cfg.legal) (hhalted : s.halted = false) :
    MidFrame s.cfg.cyclesPerFrame (frameStart s) where
  going := (frameStart_halted s).trans hhalted
  inFrame := frameStart_inFrame s
  due := by rw [frameStart_cycleInFrame, frameStart_cfg]; exact hlegal
  budget := by simp

/-- Inside a frame the sequencer's cycle is the step, and it is counted; if the frame goes on, one cycle
fewer is left. -/
theorem MidFrame.step_next {left : Nat} {s : State} (hs : MidFrame (left + 1) s) :
    ∃ t, issueCycle s = .next t ∧ step s = .next t ∧ t.cycleInFrame = s.cycleInFrame + 1 ∧
      (t.inFrame = true → MidFrame left t) := by
  obtain ⟨t, hcycle⟩ := cycle_next s
  have hkept := cycle_frameKept hcycle
  refine ⟨endCycle t, issueCycle_of_cycle hcycle,
    step_of_cycleDue hs.going ((cycleDue_iff s).2 ⟨hs.inFrame, hs.due⟩) hcycle,
    congrArg (· + 1) hkept.cycleInFrame_eq, fun hin => ?_⟩
  obtain ⟨⟨-, hstops⟩, hnext⟩ :
      (t.out.isAwait = false ∧ stopsMachine t = false) ∧
        t.cycleInFrame + 1 < t.cfg.cyclesPerFrame := by
    simpa using hin
  have hbudget := hs.budget
  rw [← hkept.cycleInFrame_eq, ← hkept.cfg_eq] at hbudget
  exact {
    going := by simp [hkept.halted_eq, hs.going, hstops]
    inFrame := hin
    due := hnext
    budget := by rw [endCycle_cycleInFrame, endCycle_cfg]; omega }

/-- Where the frame has ended no cycle of it is left. -/
theorem RunsToFrameEnd.zero {s : State} (h : s.inFrame = false) : RunsToFrameEnd 0 s s where
  run := rfl
  ended := h
  count := rfl
  inside := nofun

/-- A step inside the frame comes before the steps that are left. -/
theorem RunsToFrameEnd.cons {left n : Nat} {s t u : State} (hs : MidFrame left s)
    (hstep : step s = .next t) (hcount : t.cycleInFrame = s.cycleInFrame + 1)
    (h : RunsToFrameEnd n t u) : RunsToFrameEnd (n + 1) s u where
  run := (run_succ_of_step hstep n).trans h.run
  ended := h.ended
  count := by rw [h.count, hcount]; omega
  inside
    | 0, _ => ⟨s, rfl, hs.inFrame, hs.going, rfl⟩
    | j + 1, hj => by
      obtain ⟨v, hrun, hin, hgoing, hv⟩ := h.inside j (by omega)
      exact ⟨v, (run_succ_of_step hstep j).trans hrun, hin, hgoing, by rw [hv, hcount]; omega⟩

/-- The loop of `Frame()` with a cycle left is the run of the cycles left in the frame, as many of them
as it takes the frame to end. -/
theorem frameLoop_runsToFrameEnd {left : Nat} {s : State} (hs : MidFrame left s) :
    ∃ (n : Nat) (t : State), 1 ≤ n ∧ n ≤ left ∧ frameLoop left s = .next t ∧
      RunsToFrameEnd n s t := by
  induction left generalizing s with
  | zero => exact absurd hs.budget hs.due.ne
  | succ left ih =>
    obtain ⟨t, hissue, hstep, hcount, hnext⟩ := hs.step_next
    cases hin : t.inFrame with
    | false =>
      refine ⟨1, t, le_rfl, by omega, ?_, (RunsToFrameEnd.zero hin).cons hs hstep hcount⟩
      simp [frameLoop, hissue, hin]
    | true =>
      obtain ⟨n, u, hpos, hle, hloop, hrun⟩ := ih (hnext hin)
      refine ⟨n + 1, u, by omega, by omega, ?_, hrun.cons hs hstep hcount⟩
      simp [frameLoop, hissue, hin, hloop]

/-- Settles O17: the first step is the frame start, and the loop of `Frame()` runs the cycles of the
frame it enters, by induction on the budget left. -/
theorem frameIsTheRunOfItsSteps : Obligations.FrameIsTheRunOfItsSteps := by
  intro s hlegal hhalted hout
  have hstep : step s = .next (frameStart s) :=
    step_of_not_cycleDue hhalted (by simp [State.cycleDue, hout])
  obtain ⟨n, t, hpos, hle, hloop, hrun⟩ := frameLoop_runsToFrameEnd (midFrame_frameStart hlegal hhalted)
  refine ⟨n, t, hpos, hle, ?frame, (run_succ_of_step hstep n).trans hrun.run, hrun.ended, ?count,
    fun j hj => ?inside⟩
  case frame => simp [frame, hhalted, hloop]
  case count => simpa using hrun.count
  case inside =>
    obtain ⟨u, hu, hin, hgoing, hcount⟩ := hrun.inside j hj
    exact ⟨u, (run_succ_of_step hstep j).trans hu, hin, hgoing, by simpa using hcount⟩

end Sys2Proof.Machine
end

section
/-!
SUPPORT. Construction and `load` before the run (70_reset_and_hazards.md, R146 to R149).
-/

namespace Sys2Proof.Machine

theorem construct_of_legal {p : Params} (hp : p.legal) :
    construct p = .next (State.constructed p) := if_pos hp

/-- Settles O24: the length is what `load` asks first. -/
theorem loadRefusesAnOverlongImage : Obligations.LoadRefusesAnOverlongImage :=
  fun _ _ hlen => if_pos hlen

theorem storeImage_frameKept (s : State) (k : Nat) (image : List Byte) :
    FrameKept s (storeImage s k image) := by
  obtain ⟨m, hm⟩ := storeImage_eq image s k
  simp [hm, FrameKept]

/-- Settles O20: storing an image keeps memory canonical and writes nothing else, so the invariant of
construction holds after it. -/
theorem loadedMachineMeetsTheInvariant : Obligations.LoadedMachineMeetsTheInvariant := by
  intro p image hp hlen
  have hinv := inv_constructed hp
  have hkept := storeImage_frameKept (State.constructed p) 0 image
  refine ⟨_, _, construct_of_legal hp, State.load_of_not_running rfl hlen,
    hinv.of_frameKept rfl hkept ?memory⟩
  case memory =>
    rw [hkept.cfg_eq]
    exact storeImage_wf image _ 0 hinv.memory

/-- Settles O23: `load` stores the image from offset 0 on, and every read after that is the image's byte
or as before. -/
theorem loadCopiesTheImage : Obligations.LoadCopiesTheImage := by
  intro s image hrun hlen
  have hread := storeImage_memRead image s 0 (by simpa using hlen)
  refine ⟨_, State.load_of_not_running hrun hlen, ?image, ?outside, ?rest⟩
  case image =>
    intro k hk
    have haddr : (BitVec.ofNat 16 (0x200 + k)).toNat % 4096 = 0x200 + k := by
      rw [BitVec.toNat_ofNat]
      omega
    rw [hread, dif_pos (by omega)]
    simp only [haddr, Nat.add_sub_cancel_left, Nat.sub_zero]
  case outside =>
    intro a ha
    rw [hread, dif_neg (by omega)]
  case rest =>
    obtain ⟨m, hm⟩ := storeImage_eq image s 0
    rw [hm]

end Sys2Proof.Machine
end
